-- ==== Sys2Proof/Word.lean ====
section
/-! DEFINITION. The words SRS-FE moves (spec/20_memory.md R49, spec/00_scope.md R9): every field is unsigned. -/

namespace Sys2Proof

/-- An output byte (R49). -/
abbrev Byte := BitVec 8

/-- A command word CW: bits 15:0 of a CMD write (R61). -/
abbrev CmdWord := BitVec 16

/-- A host bus word: every register access moves 32 bits (R47). -/
abbrev BusWord := BitVec 32

end Sys2Proof
end

