-- ==== Sys2Proof/Config.lean ====
section
/-! DEFINITION. What is fixed for the machine: the constants of R6, the parameters of R7 and R8, and the free values. -/

namespace Sys2Proof

/-- BUF_CAP (R6): entries of the bit buffer. -/
def Config.bufCap : Nat := 32
/-- BASE_LEN (R6): entries of a base frame. -/
def Config.baseLen : Nat := 16
/-- EXT_LEN (R6): entries of an extended frame. -/
def Config.extLen : Nat := 32
/-- MARK_M (R6): the buffer index of the marker bit m. -/
def Config.markM : Nat := 15
/-- MARK_T (R6): the buffer index of the marker bit t. -/
def Config.markT : Nat := 13
/-- ZERO_BYTE (R6). -/
def Config.zeroByte : Byte := 0x00
/-- DELIM (R6): newline. -/
def Config.delim : Byte := 0x0A

/-- The parameters of R7 and R8 that some rule reads. State carries them, so a statement about every state holds for
every platform (assumption log 4). -/
structure Params where
  /-- ONE_MARKER (R7), non-zero and printable: see `Params.Admissible`. -/
  oneMarker : Byte
  /-- SPIN_TICKS (R7), at least 1. -/
  spinTicks : Nat
  /-- INTERCYCLE_TICKS (R7). -/
  interCycleTicks : Nat
  /-- RELATCH_ON_EXT (R8, 90_conflicts.md C3). -/
  relatchOnExt : Bool
  /-- DBG_TRAILING_SEP (R8). -/
  dbgTrailingSep : Bool
  /-- AUTORUN (R8). -/
  autorun : Bool
  /-- CFG_RST_STRAT (R8): false is the standard strategy. -/
  rstStrat : Bool
  /-- CFG_RST_FRAMER (R8): false is the compact framer. -/
  rstFramer : Bool
  /-- CFG_RST_LONGWAIT (R8). -/
  rstLongWait : Bool
deriving DecidableEq, Repr

/-- The constraints R7 puts on the open parameters. -/
abbrev Params.Admissible (p : Params) : Prop :=
  0x20 ≤ p.oneMarker.toNat ∧ p.oneMarker.toNat ≤ 0x7E ∧ 1 ≤ p.spinTicks

/-- Where ONE_MARKER lies above 0x20: open (R7, U3). PRESUMED printable range, as the spec's G2 (log 13); safe. -/
opaque Config.printableOffset : Fin 95
/-- ONE_MARKER: open, and printable by construction (R7). -/
def Config.oneMarker : Byte := BitVec.ofNat 8 (0x20 + Config.printableOffset.val)
/-- SPIN_TICKS - 1: open (R7, U5). -/
opaque Config.spinTicksLessOne : Nat
/-- INTERCYCLE_TICKS: open (R7, U6). -/
opaque Config.interCycleTicks : Nat
/-- F_TICK (R7), in hertz: open; no rule of behaviour reads it (R146). -/
opaque Config.fTick : Nat
/-- SRS_BASE / 4: open (R7, U10); the block sees only byte offsets (R26), so no rule of behaviour reads it. DESIGN CHOICE
(log 25): R7 asks that the 32-byte block fit the host's address space, whose size the spec does not give; the model takes an
unbounded space, in which every base fits. -/
opaque Config.srsBaseWord : Nat
/-- SRS_BASE (R7): a word-aligned host address, with no upper bound (DESIGN CHOICE, log 25). -/
def Config.srsBase : Nat := 4 * Config.srsBaseWord

/-- The platform of `State.reset`: R7's parameters open, R8's at the spec's defaults. -/
def Config.platform : Params where
  oneMarker := Config.oneMarker
  spinTicks := Config.spinTicksLessOne + 1
  interCycleTicks := Config.interCycleTicks
  relatchOnExt := false
  dbgTrailingSep := false
  autorun := true
  rstStrat := false
  rstFramer := false
  rstLongWait := false

/-- A free value: the level the device answers at the n-th draw, when its script has run out (R14, U18; log 2). -/
opaque Config.freeLevel : Nat → Bool
/-- A free value: the bits the n-th host read of BUF shows for unwritten entries (R44, U2; log 6). -/
opaque Config.freeWord : Nat → BusWord

end Sys2Proof
end

