-- ==== Sys2Proof/Syntax.lean ====
section
/-! DEFINITION. The commands of SRS-FE (spec/30_encoding.md R61 to R67): one constructor per row of opcode_table.json. -/

namespace Sys2Proof

/-- A line a wait can name (R63): code 0, 1, 2. -/
inductive Line where
  | latch | clock | data
deriving DecidableEq, Repr

/-- A legal command (R59, R67) with its operand fields as R66 takes them. `nm1` is n - 1. -/
inductive Instr where
  /-- No operation (R99). -/
  | nop
  /-- Wait for a falling edge on `line` (R74). -/
  | wfe (line : Line)
  /-- Wait for a rising edge on `line` (R76). -/
  | wre (line : Line)
  /-- Standard sampling pass (R80): `l` waits for LATCH first. -/
  | smps (l : Bool) (idx nm1 : BitVec 5)
  /-- Legacy sampling pass (R82): `p` spins once before the first bit. -/
  | smpl (l p : Bool) (idx nm1 : BitVec 5)
  /-- Classify the frame (R86). -/
  | det
  /-- Emit compact frame (R92). -/
  | emc (start : BitVec 5) (count : BitVec 6)
  /-- Emit debug frame (R95). -/
  | emd (start : BitVec 5) (count : BitVec 6)
  /-- Suspend the host's interrupt sources (R100). -/
  | irqoff
  /-- Resume the host's interrupt sources (R101). -/
  | irqon
  /-- The inter-cycle delay (R102). -/
  | dly
  /-- Capture one frame (R103). -/
  | cap
  /-- Emit the current frame in the configured encoding (R104). -/
  | emf
  /-- One complete cycle (R105). -/
  | cycle
  /-- Repeat the cycle for ever (R106). -/
  | run
deriving DecidableEq, Repr

end Sys2Proof
end

