-- ==== Sys2Proof/WellFormed.lean ====
section
/-! DEFINITION. Which legal commands are in range (spec/30_encoding.md R60, R66, R68): exact sums, no wrap-around. -/

namespace Sys2Proof

/-- The bits of a pass, n = nm1 + 1 (R66). -/
def passBits (nm1 : BitVec 5) : Nat := nm1.toNat + 1

/-- A pass stays inside the buffer (R60, format S). -/
def passInRange (idx nm1 : BitVec 5) : Bool :=
  decide (idx.toNat + passBits nm1 ≤ Config.bufCap)

/-- A frame stays inside the buffer (R60, format F). -/
def frameInRange (start : BitVec 5) (count : BitVec 6) : Bool :=
  decide (count.toNat ≤ Config.bufCap) && decide (start.toNat + count.toNat ≤ Config.bufCap)

/-- InRange (R60). Formats N and W have no range check. -/
def Instr.inRange : Instr → Bool
  | .smps _ idx nm1 => passInRange idx nm1
  | .smpl _ _ idx nm1 => passInRange idx nm1
  | .emc start count => frameInRange start count
  | .emd start count => frameInRange start count
  | .nop | .wfe _ | .wre _ | .det | .irqoff | .irqon | .dly | .cap | .emf | .cycle | .run => true

/-- A well-formed command: one that acceptance takes when the block is idle (R58). -/
abbrev Instr.WellFormed (i : Instr) : Prop := i.inRange = true

end Sys2Proof
end

