-- ==== Sys2Proof/Decode.lean ====
section
/-! DEFINITION. Decoding and encoding of command words (spec/30_encoding.md R59, R61 to R67). Decoding is total on every
32-bit CMD value; `none` is ILLEGAL_COMMAND, Legal(v) of R59 being false. -/

namespace Sys2Proof

/-- `w[lo+len-1 : lo]` of a command word as a number (R9). -/
def cwField (cw : CmdWord) (lo len : Nat) : Nat := (cw.extractLsb' lo len).toNat

/-- The line a code names (R63); code 3 is reserved. -/
def lineOfCode : Nat → Option Line
  | 0 => some .latch
  | 1 => some .clock
  | 2 => some .data
  | _ => none

/-- The code of a line (R63). -/
def lineCode : Line → BitVec 2
  | .latch => 0
  | .clock => 1
  | .data => 2

/-- Format N (R62): bits 11:0 are zero. -/
def decodeN (cw : CmdWord) (i : Instr) : Option Instr :=
  if cwField cw 0 12 = 0 then some i else none

/-- Format W (R63): bits 11:2 are zero, `line` in 1:0. -/
def decodeW (cw : CmdWord) (f : Line → Instr) : Option Instr :=
  if cwField cw 2 10 = 0 then (lineOfCode (cwField cw 0 2)).map f else none

/-- Format F (R65): bit 11 is zero, `count` in 10:5, `start` in 4:0. -/
def decodeF (cw : CmdWord) (f : BitVec 5 → BitVec 6 → Instr) : Option Instr :=
  if cw.getLsbD 11 then none else some (f (cw.extractLsb' 0 5) (cw.extractLsb' 5 6))

/-- Format S as SMPS uses it (R64, R59 case 5): P must be zero. -/
def decodeSmps (cw : CmdWord) : Option Instr :=
  if cw.getLsbD 10 then none
  else some (.smps (cw.getLsbD 11) (cw.extractLsb' 5 5) (cw.extractLsb' 0 5))

/-- Format S as SMPL uses it (R64): no must-be-zero bit. -/
def decodeSmpl (cw : CmdWord) : Option Instr :=
  some (.smpl (cw.getLsbD 11) (cw.getLsbD 10) (cw.extractLsb' 5 5) (cw.extractLsb' 0 5))

/-- The opcode map (R67): the command of a 16-bit word, `none` where R59 says it is illegal. -/
def decodeWord (cw : CmdWord) : Option Instr :=
  match cwField cw 12 4 with
  | 0x0 => decodeN cw .nop
  | 0x1 => decodeW cw .wfe
  | 0x2 => decodeW cw .wre
  | 0x3 => decodeSmps cw
  | 0x4 => decodeSmpl cw
  | 0x5 => decodeN cw .det
  | 0x6 => decodeF cw .emc
  | 0x7 => decodeF cw .emd
  | 0x8 => decodeN cw .irqoff
  | 0x9 => decodeN cw .irqon
  | 0xA => decodeN cw .dly
  | 0xB => decodeN cw .cap
  | 0xC => decodeN cw .emf
  | 0xD => decodeN cw .cycle
  | 0xE => decodeN cw .run
  | _ => none

/-- The command word of a CMD write (R41): `v[15:0]`. -/
def lowHalf (v : BusWord) : CmdWord := v.extractLsb' 0 16

/-- The command of a CMD write: `v[31:16]` must be zero (R59 case 1). -/
def decode (v : BusWord) : Option Instr :=
  if v.extractLsb' 16 16 = 0#16 then decodeWord (lowHalf v) else none

/-- The opcode of a command (R67). -/
def opcodeOf : Instr → BitVec 4
  | .nop => 0x0
  | .wfe _ => 0x1
  | .wre _ => 0x2
  | .smps .. => 0x3
  | .smpl .. => 0x4
  | .det => 0x5
  | .emc .. => 0x6
  | .emd .. => 0x7
  | .irqoff => 0x8
  | .irqon => 0x9
  | .dly => 0xA
  | .cap => 0xB
  | .emf => 0xC
  | .cycle => 0xD
  | .run => 0xE

/-- Bits 11:0 of a command (R62 to R65). -/
def operandBits : Instr → BitVec 12
  | .wfe line | .wre line => 0#10 ++ lineCode line
  | .smps l idx nm1 => BitVec.ofBool l ++ 0#1 ++ idx ++ nm1
  | .smpl l p idx nm1 => BitVec.ofBool l ++ BitVec.ofBool p ++ idx ++ nm1
  | .emc start count | .emd start count => 0#1 ++ count ++ start
  | .nop | .det | .irqoff | .irqon | .dly | .cap | .emf | .cycle | .run => 0#12

/-- The word of a command: its opcode over its operand bits (R61). -/
def encode (i : Instr) : CmdWord := opcodeOf i ++ operandBits i

/-- `zext_32` of a command word (R9, R114). -/
def zext32 (cw : CmdWord) : BusWord := cw.setWidth 32

/-- The instruction the decoder reads from a table word: one 16-bit word, written to CMD bits 15:0. -/
def decodeTableWord (nbits w : Nat) : Option Instr := decode (BitVec.ofNat 32 (w % 2 ^ nbits))

end Sys2Proof
end

