-- ==== Sys2Proof/Machine/State.lean ====
section
/-! DEFINITION. The state of SRS-FE and of the two agents around it (spec/10_state.md), its reset values (R28), and the
reasons a step can stop. Plain data. -/

namespace Sys2Proof.Machine

/-- The fault codes of R113; codes 6 and 7 are never raised, so the enumeration has none for them. -/
inductive FaultCode where
  /-- 0: no fault. -/
  | none
  /-- 1: ILLEGAL_COMMAND. -/
  | illegalCommand
  /-- 2: OPERAND_RANGE. -/
  | operandRange
  /-- 3: CMD_OVERRUN. -/
  | cmdOverrun
  /-- 4: CFG_WRITE_BUSY. -/
  | cfgWriteBusy
  /-- 5: UNWRITTEN_READ. -/
  | unwrittenRead
deriving DecidableEq, Repr

/-- EWS (R25): the edge-wait sub-state. -/
inductive EdgeState where
  /-- PRE: still waiting to observe the pre-edge level. -/
  | pre
  /-- POST: pre-edge level seen, waiting for the post-edge level. -/
  | post
deriving DecidableEq, Repr

/-- CPH (R25): the step of CYCLE and RUN (R105). Steps a and c hold no timed action. -/
inductive CyclePhase where
  | a | b | c | d | e
deriving DecidableEq, Repr

/-- KPH (R25): the step of CAP (R103). CLASSIFY holds no timed action. -/
inductive CapPhase where
  | pass1 | classify | pass2
deriving DecidableEq, Repr

/-- The running command's next timed action: with R25's variables it is the place in the command's pseudocode that R16
calls hidden sequencer state. DEDUCED (log 7); safe. -/
inductive Action where
  /-- The acceptance tick (R144.1); also the value while no command runs. -/
  | accept
  /-- The observation of a WFE or WRE (R73, R75). -/
  | wait
  /-- The LATCH observation of a pass (R78, R81). -/
  | latch
  /-- The CLOCK observation of a pass (R78). -/
  | clock
  /-- The DATA observation of a pass (R78, R81). -/
  | data
  /-- A tick of a spin (R81). -/
  | spin
  /-- The byte at the head of OQ (R91, R94). -/
  | send
  /-- A tick of the delay (R102). -/
  | delay
deriving DecidableEq, Repr

/-- The size of a host access; only words are part of the interface (R47). -/
inductive AccessSize where
  | byte | half | word
deriving DecidableEq, Repr

/-- A host access at a 5-bit byte offset (R26, R40). -/
inductive HostAccess where
  | read (size : AccessSize) (off : BitVec 5)
  | write (size : AccessSize) (off : BitVec 5) (v : BusWord)
deriving DecidableEq, Repr

/-- What the host drives for one tick: the level of `rst` in it (R131) and the access at the boundary before it (R121).
DEDUCED: the one host port of R26 carries at most one access a tick (log 3); unsafe if a bus carried several. -/
structure HostTick where
  rst : Bool
  access : Option HostAccess
deriving DecidableEq, Repr

/-- The state: the spec's own (10_state.md), the platform's parameters, and what stands for the device and the host. -/
structure State where
  /-- The platform's parameters (R7, R8); no step changes them (log 4). -/
  params : Params
  /-- BUF (R17): bit i is BUF[i]. -/
  buf : BusWord
  /-- WR (R17): bit i is 1 when entry i has been written since reset. -/
  wr : BusWord
  /-- FL (R19): false is 16, true is 32. -/
  fl : Bool
  /-- EXT (R20). -/
  ext : Bool
  /-- IS (R21), the level of `irq_suspend`. -/
  is : Bool
  /-- BUSY (R22). -/
  busy : Bool
  /-- FLT (R23). -/
  flt : Bool
  /-- FCODE (R23, R113). -/
  fcode : FaultCode
  /-- FINFO (R23, R114). -/
  finfo : BusWord
  /-- CFG.STRAT (R24): true is the legacy strategy. -/
  strat : Bool
  /-- CFG.FRAMER (R24): true is the DebugFramer. -/
  framer : Bool
  /-- CFG.LONGWAIT (R24). -/
  longWait : Bool
  /-- CUR (R25). -/
  cur : CmdWord
  /-- EWS (R25). -/
  ews : EdgeState
  /-- BI (R25): 0 to 32. -/
  bi : Nat
  /-- SC (R25). -/
  sc : Nat
  /-- DC (R25). -/
  dc : Nat
  /-- OQ (R25). -/
  oq : List Byte
  /-- CPH (R25). -/
  cph : CyclePhase
  /-- KPH (R25). -/
  kph : CapPhase
  /-- The next timed action (R16, R25; log 7). -/
  act : Action
  /-- OUT (R27), first byte first. -/
  out : List Byte
  /-- tx_valid and tx_data (R26) in the tick just past: `some b` is tx_valid = 1 with data b (log 14). -/
  tx : Option Byte
  /-- The data the host bus returned at the last boundary, if a read was made there (R26; log 14). -/
  rdata : Option BusWord
  /-- The device's scripted answers for LATCH, next first (R14; log 2). -/
  latchAns : List Bool
  /-- The device's scripted answers for CLOCK. -/
  clockAns : List Bool
  /-- The device's scripted answers for DATA. -/
  dataAns : List Bool
  /-- The model's counter of free levels drawn (log 15). -/
  draws : Nat
  /-- The model's counter of host reads of BUF, each of which draws a free word (R44; log 15). -/
  bufReads : Nat
  /-- What the host drives, one entry a tick; past its end the host does nothing (log 3). -/
  hostq : List HostTick
deriving DecidableEq, Repr

/-- Why the machine stops. The spec's own faults (R113) are not here: they are next states with FLT = 1. -/
inductive Fault where
  /-- Raised by `sequencerTick` and by every meaning's tick: BUSY is 1 and CUR with the hidden sequencer variables is no
  place in a command. No state that meets `State.Inv` is one; safe (log 9). -/
  | lostSequencer
deriving DecidableEq, Repr

/-- What the model gives no meaning. -/
inductive Refusal where
  /-- Raised by exec for an instruction not modelled yet; safe. -/
  | notModelled (mnemonic : String)
  /-- Raised by `accessReg`: a byte or halfword host access (R47, U14); safe. -/
  | subwordAccess
  /-- Raised by `accessReg`: a host access at an offset that is no multiple of 4 (R47, U14); safe. -/
  | misalignedAccess
deriving DecidableEq, Repr

/-- How one step or one meaning ends. -/
abbrev Result := Host.Outcome State Fault Refusal

/-- The state after reset on a platform (R28, R131). BUF's value is the model's DESIGN CHOICE (log 5). -/
def State.resetOn (p : Params) : State where
  params := p
  buf := 0
  wr := 0
  fl := false
  ext := false
  is := false
  busy := p.autorun
  flt := false
  fcode := .none
  finfo := 0
  strat := p.rstStrat
  framer := p.rstFramer
  longWait := p.rstLongWait
  cur := if p.autorun then 0xE000 else 0x0000
  ews := .pre
  bi := 0
  sc := 0
  dc := 0
  oq := []
  cph := .a
  kph := .pass1
  act := .accept
  out := []
  tx := none
  rdata := none
  latchAns := []
  clockAns := []
  dataAns := []
  draws := 0
  bufReads := 0
  hostq := []

/-- The machine right after reset, on the platform of `Config.platform` (R8's defaults, so AUTORUN is true). -/
def State.reset : State := State.resetOn Config.platform

/-- The output port `irq_suspend` (R21, R26). -/
def State.irqSuspend (s : State) : Bool := s.is

end Sys2Proof.Machine
end

