-- ==== Sys2Proof/Machine/Ops.lean ====
section
/-! DEFINITION. The primitives of R10 and the operations every command shares: observing a line, the bit buffer, output,
fault entry (R118), acceptance (R58) and completion (R22). -/

namespace Sys2Proof.Machine

/-! ### The device (R10 `Obs`, R14) -/

/-- The device's scripted answers for a line. -/
def State.answers (s : State) : Line → List Bool
  | .latch => s.latchAns
  | .clock => s.clockAns
  | .data => s.dataAns

/-- The state with other answers to come on a line. -/
def State.withAnswers (s : State) (line : Line) (l : List Bool) : State :=
  match line with
  | .latch => { s with latchAns := l }
  | .clock => { s with clockAns := l }
  | .data => { s with dataAns := l }

/-- The raw level (true is high) the next `Obs(line)` returns (R10, R14): the script's next answer, else a free level. -/
def State.observed (s : State) (line : Line) : Bool :=
  match s.answers line with
  | v :: _ => v
  | [] => Config.freeLevel s.draws

/-- The state after that observation: the answer is used up, and nothing else changes (R48). -/
def State.afterObs (s : State) (line : Line) : State :=
  match s.answers line with
  | _ :: rest => s.withAnswers line rest
  | [] => { s with draws := s.draws + 1 }

/-! ### Edge waits (R73, R75), one observation at a time -/

/-- The direction of an edge of the raw level (R11). -/
inductive Edge where
  | falling | rising
deriving DecidableEq, Repr

/-- The level the first loop of a wait looks for (R73, R75). -/
def Edge.preLevel : Edge → Bool
  | .falling => true
  | .rising => false

/-- The level the second loop of a wait looks for (R73, R75). -/
def Edge.postLevel : Edge → Bool
  | .falling => false
  | .rising => true

/-- The next observation of `line` ends the wait. -/
def State.edgeEnds (s : State) (e : Edge) (line : Line) : Bool :=
  decide (s.ews = .post) && decide (s.observed line = e.postLevel)

/-- EWS after an observation that returned `v` (R73, R75): one observation never serves both loops. -/
def nextEws (e : Edge) (ews : EdgeState) (v : Bool) : EdgeState :=
  match ews with
  | .pre => if v = e.preLevel then .post else .pre
  | .post => if v = e.postLevel then .pre else .post

/-- One observation of a wait (R73, R75). -/
def State.edgeStep (s : State) (e : Edge) (line : Line) : State :=
  { s.afterObs line with ews := nextEws e s.ews (s.observed line) }

/-! ### The bit buffer (R10, R17) -/

/-- A word with bit i set to b. -/
def setBit (w : BusWord) (i : Nat) (b : Bool) : BusWord :=
  if b then w ||| BitVec.twoPow 32 i else w &&& ~~~ BitVec.twoPow 32 i

/-- `BufWrite(i, v)` (R17). -/
def State.bufWrite (s : State) (i : Nat) (v : Bool) : State :=
  { s with buf := setBit s.buf i v, wr := setBit s.wr i true }

/-- `BufRead(i)` (R10). -/
def State.bufRead (s : State) (i : Nat) : Bool := s.buf.getLsbD i

/-- Entry i has been written since reset (R17). -/
def State.written (s : State) (i : Nat) : Bool := s.wr.getLsbD i

/-! ### Output (R10 `Tx`, R27) -/

/-- `Tx(b)`: the byte is on the port in this tick and joins OUT. -/
def State.transmit (s : State) (b : Byte) : State :=
  { s with out := s.out ++ [b], tx := some b }

/-! ### Faults (R118) -/

/-- Fault entry, `raise Fault(code, info)` (R118): the one operation every fault of R113 goes through. -/
def raiseFault (code : FaultCode) (info : BusWord) (s : State) : State :=
  { s with flt := true, fcode := code, finfo := info, busy := false, is := false, act := .accept }

/-- FINFO of UNWRITTEN_READ (R114): the entry's index in 20:16 over CUR. -/
def unwrittenInfo (i : Nat) (cur : CmdWord) : BusWord := 0#11 ++ BitVec.ofNat 5 i ++ cur

/-- The first unwritten entry of a list of indices. -/
def State.firstUnwritten (s : State) (l : List Nat) : Option Nat := l.find? fun j => !s.written j

/-- The check of R86 and R90: go on if every listed entry is written, else UNWRITTEN_READ on the first that is not. -/
def guardWritten (l : List Nat) (k : State → State) (s : State) : State :=
  match s.firstUnwritten l with
  | some i => raiseFault .unwrittenRead (unwrittenInfo i s.cur) s
  | none => k s

/-! ### Acceptance and completion (R58, R22) -/

/-- `CUR <- v[15:0]; BUSY <- 1` (R58): the acceptance tick is the next action. -/
def accept (i : Instr) (s : State) : State :=
  { s with cur := encode i, busy := true, act := .accept }

/-- The command's last action is done: `BUSY <- 0` (R22, R58). -/
def complete (s : State) : State := { s with busy := false, act := .accept }

/-- One tick of command i, whose own tick is `tick`. Halted: nothing happens (R119). Idle: acceptance with its range check
(R58, R60) and the acceptance tick. Busy: the running command's next action (R55); `sequencerTick` calls it with the command
CUR holds. -/
def command (i : Instr) (tick : State → Result) (s : State) : Result :=
  if s.flt then .next s
  else if s.busy then tick s
  else if i.inRange then tick (accept i s)
  else .next (raiseFault .operandRange (zext32 (encode i)) s)

/-- The tick of a command that ends in its acceptance tick (R144.3). -/
def singleTick (k : State → State) (s : State) : Result :=
  match s.act with
  | .accept => .next (complete (k s))
  | _ => .fault .lostSequencer

end Sys2Proof.Machine
end

