-- ==== Sys2Proof/Machine/Flags.lean ====
section
/-! DEFINITION. The flags: the classification (R87), the frame length (R19), and the STATUS and CFG words (R42, R43). -/

namespace Sys2Proof.Machine

/-- `Classify(m, t)` (R87): m or ((not m) and (not t)). -/
def classify (m t : Bool) : Bool := m || (!m && !t)

/-- The classification of the stored marker bits (R86, R103). -/
def State.classified (s : State) : Bool :=
  classify (s.bufRead Config.markM) (s.bufRead Config.markT)

/-- The entries a classification reads, in ascending order (R86). -/
def markerEntries : List Nat := [Config.markT, Config.markM]

/-- FLEN (R19). -/
def State.flen (s : State) : Nat := if s.fl then Config.extLen else Config.baseLen

/-- The 3-bit code of R113. -/
def FaultCode.bits : FaultCode → BitVec 3
  | .none => 0
  | .illegalCommand => 1
  | .operandRange => 2
  | .cmdOverrun => 3
  | .cfgWriteBusy => 4
  | .unwrittenRead => 5

/-- The STATUS word (R42). -/
def State.statusWord (s : State) : BusWord :=
  0#21 ++ s.fcode.bits ++ 0#3 ++ BitVec.ofBool s.flt ++ BitVec.ofBool s.ext ++ BitVec.ofBool s.fl
    ++ BitVec.ofBool s.is ++ BitVec.ofBool s.busy

/-- The CFG word (R24, R43). -/
def State.cfgWord (s : State) : BusWord :=
  0#29 ++ BitVec.ofBool s.longWait ++ BitVec.ofBool s.framer ++ BitVec.ofBool s.strat

end Sys2Proof.Machine
end

