-- ==== Sys2Proof/Machine/Operands.lean ====
section
/-! DEFINITION. Operand forms (R66): the parameters of a sampling pass, and the entries a framer reads. -/

namespace Sys2Proof.Machine

/-- The arguments of PassStd and PassLeg (R78, R81). -/
structure Pass where
  /-- The timed strategy of R81; else the clocked one of R78. -/
  legacy : Bool
  /-- L: wait for a LATCH falling edge first. -/
  latchFirst : Bool
  /-- P: spin once before the first bit (R81). -/
  lead : Bool
  /-- The first entry. -/
  idx : Nat
  /-- The number of bits. -/
  n : Nat
deriving DecidableEq, Repr

/-- The pass of an SMPS (R80). -/
def smpsPass (l : Bool) (idx nm1 : BitVec 5) : Pass :=
  { legacy := false, latchFirst := l, lead := false, idx := idx.toNat, n := passBits nm1 }

/-- The pass of an SMPL (R82). -/
def smplPass (l p : Bool) (idx nm1 : BitVec 5) : Pass :=
  { legacy := true, latchFirst := l, lead := p, idx := idx.toNat, n := passBits nm1 }

/-- The base pass of a capture (R103): `Pass(s, 1, 0, 0, 16)`. -/
def State.basePass (s : State) : Pass :=
  { legacy := s.strat, latchFirst := true, lead := false, idx := 0, n := Config.baseLen }

/-- The extension pass of a capture (R103):
`Pass(s, RELATCH_ON_EXT, (s = 1) and not RELATCH_ON_EXT, 16, 16)`. -/
def State.extPass (s : State) : Pass :=
  { legacy := s.strat, latchFirst := s.params.relatchOnExt,
    lead := s.strat && !s.params.relatchOnExt, idx := Config.baseLen, n := Config.baseLen }

/-- The ticks S of a spin (R81): doubled under CFG.LONGWAIT. -/
def State.spinLength (s : State) : Nat :=
  if s.longWait then 2 * s.params.spinTicks else s.params.spinTicks

/-- The entries lo .. hi-1, ascending (R90). -/
def entries (lo hi : Nat) : List Nat := List.range' lo (hi - lo)

end Sys2Proof.Machine
end

