-- ==== Sys2Proof/Machine/Framing.lean ====
section
/-! DEFINITION. Frame encoding (spec/44_framing.md): the two encodings, EMC and EMD, and the emission EMF shares. -/

namespace Sys2Proof.Machine

/-- `CompactBytes(start, count)` (R91). -/
def State.compactBytes (s : State) (start count : Nat) : List Byte :=
  (entries start (start + count)).map (fun j => if s.bufRead j then s.params.oneMarker else Config.zeroByte)
    ++ [Config.delim]

/-- `Digit(b)` (R94). PRESUMED: the ASCII codes, which the spec marks as general knowledge (G1; log 13). -/
def digit (b : Bool) : Byte := if b then 0x31 else 0x30

/-- The separator byte of R94 (log 13). -/
def separator : Byte := 0x7C

/-- The i-th digit after the prefix with the group separator R94 puts before it. -/
def State.groupedDigit (s : State) (start i : Nat) : List Byte :=
  (if 0 < i ∧ i % 8 = 0 then [separator] else []) ++ [digit (s.bufRead (start + i))]

/-- The separator after a final full group, if the platform asks for one (R94). -/
def State.trailingSeparator (s : State) (count : Nat) : List Byte :=
  if s.params.dbgTrailingSep ∧ 0 < count ∧ count % 8 = 0 then [separator] else []

/-- `DebugBytes(start, count)` (R94). -/
def State.debugBytes (s : State) (start count : Nat) : List Byte :=
  (entries 0 start).map (fun j => digit (s.bufRead j)) ++ [separator]
    ++ (entries 0 count).flatMap (s.groupedDigit start) ++ s.trailingSeparator count ++ [Config.delim]

/-- The bytes of an emission stand ready; sending the first is the next action (R92, R95; log 21). -/
def queueBytes (bytes : State → List Byte) (s : State) : State :=
  { s with oq := bytes s, act := .send }

/-- A tick of an emission: one byte (R144.2); `done` follows in the tick of the last. -/
def sendTick (done : State → State) (s : State) : Result :=
  match s.act, s.oq with
  | .send, [b] => .next (done ({ s with oq := [] }.transmit b))
  | .send, b :: rest => .next ({ s with oq := rest }.transmit b)
  | _, _ => .fault .lostSequencer

/-- A tick of a framing command: the written check and the queueing in the acceptance tick, then one byte a tick. -/
def emitTick (check : State → List Nat) (bytes : State → List Byte) (s : State) : Result :=
  match s.act with
  | .accept => .next (guardWritten (check s) (queueBytes bytes) s)
  | _ => sendTick complete s

/-- EMC (R92). -/
def execEmc (start : BitVec 5) (count : BitVec 6) (s : State) : Result :=
  command (.emc start count)
    (emitTick (fun _ => entries start.toNat (start.toNat + count.toNat))
      (fun t => t.compactBytes start.toNat count.toNat)) s

/-- EMD (R95): the prefix entries are read, so the check starts at entry 0. -/
def execEmd (start : BitVec 5) (count : BitVec 6) (s : State) : Result :=
  command (.emd start count)
    (emitTick (fun _ => entries 0 (start.toNat + count.toNat))
      (fun t => t.debugBytes start.toNat count.toNat)) s

end Sys2Proof.Machine
end

