-- ==== Sys2Proof/Machine/Sampling.lean ====
section
/-! DEFINITION. Sampling passes (spec/42_sampling.md), one timed action a tick: SMPS and SMPL, and the pass CAP shares. -/

namespace Sys2Proof.Machine

/-- Spin(S) begins (R81): SC is loaded; a spin of no ticks leaves DATA as the next action. -/
def startSpin (s : State) : State :=
  { s with sc := s.spinLength, act := if s.spinLength = 0 then .data else .spin }

/-- What follows the latch wait of a pass, or comes first without one (R78, R81). -/
def afterLatch (p : Pass) (s : State) : State :=
  if p.legacy then (if p.lead then startSpin s else { s with act := .data })
  else { s with act := .clock }

/-- The start of a pass: no bit stored, and the latch wait first if L = 1 (R78, R81). -/
def startPass (p : Pass) (s : State) : State :=
  if p.latchFirst then { s with bi := 0, ews := .pre, act := .latch }
  else afterLatch p { s with bi := 0, ews := .pre }

/-- The DATA observation of bit BI: its negation is stored in the same tick (R78, R81, R85, R144.3). -/
def storeBit (p : Pass) (s : State) : State :=
  { (s.afterObs .data).bufWrite (p.idx + s.bi) (!s.observed .data) with bi := s.bi + 1 }

/-- What follows a stored bit of a pass that has more (R78, R83). -/
def nextBit (p : Pass) (s : State) : State :=
  if p.legacy then startSpin s else { s with act := .clock }

/-- A tick of a running pass; `done` is what the command does, in the same tick, when the last bit is stored. -/
def passTick (p : Pass) (done : State → State) (s : State) : Result :=
  match s.act with
  | .latch =>
    .next (if s.edgeEnds .falling .latch then afterLatch p (s.edgeStep .falling .latch)
           else s.edgeStep .falling .latch)
  | .clock =>
    .next (if s.edgeEnds .falling .clock then { s.edgeStep .falling .clock with act := .data }
           else s.edgeStep .falling .clock)
  | .data => .next (if p.n ≤ s.bi + 1 then done (storeBit p s) else nextBit p (storeBit p s))
  | .spin => .next { s with sc := s.sc - 1, act := if s.sc - 1 = 0 then .data else .spin }
  | _ => .fault .lostSequencer

/-- A tick of a sampling command (R80, R82): its acceptance tick, then its pass. -/
def sampleTick (p : Pass) (s : State) : Result :=
  match s.act with
  | .accept => .next (startPass p s)
  | _ => passTick p complete s

/-- SMPS (R80): `PassStd(L, idx, n)` whatever CFG.STRAT says. -/
def execSmps (l : Bool) (idx nm1 : BitVec 5) (s : State) : Result :=
  command (.smps l idx nm1) (sampleTick (smpsPass l idx nm1)) s

/-- SMPL (R82): `PassLeg(L, P, idx, n)` whatever CFG.STRAT says. -/
def execSmpl (l p : Bool) (idx nm1 : BitVec 5) (s : State) : Result :=
  command (.smpl l p idx nm1) (sampleTick (smplPass l p idx nm1)) s

end Sys2Proof.Machine
end

