-- ==== Sys2Proof/Machine/Control.lean ====
section
/-! DEFINITION. Cycle and control commands (spec/45_control.md): NOP, IRQOFF, IRQON, DLY, CAP, EMF, CYCLE, RUN. -/

namespace Sys2Proof.Machine

/-- NOP (R99). -/
def execNop (s : State) : Result := command .nop (singleTick fun t => t) s

/-- IRQOFF (R100): no nesting count. -/
def execIrqoff (s : State) : Result := command .irqoff (singleTick fun t => { t with is := true }) s

/-- IRQON (R101). -/
def execIrqon (s : State) : Result := command .irqon (singleTick fun t => { t with is := false }) s

/-! ### The delay (R102) -/

/-- `DC <- INTERCYCLE_TICKS`; a delay of no ticks is over at once. -/
def startDelay (done : State → State) (s : State) : State :=
  if s.params.interCycleTicks = 0 then done { s with dc := 0 }
  else { s with dc := s.params.interCycleTicks, act := .delay }

/-- A tick of the delay. -/
def delayTick (done : State → State) (s : State) : Result :=
  match s.act with
  | .delay =>
    .next (if s.dc - 1 = 0 then done { s with dc := s.dc - 1 } else { s with dc := s.dc - 1 })
  | _ => .fault .lostSequencer

/-- DLY (R102). -/
def dlyTick (s : State) : Result :=
  match s.act with
  | .accept => .next (startDelay complete s)
  | _ => delayTick complete s

/-- DLY (R102). -/
def execDly (s : State) : Result := command .dly dlyTick s

/-! ### The capture (R103) -/

/-- `FL <- 0` and the base pass begins (KPH = PASS1). -/
def startCapture (s : State) : State := startPass s.basePass { s with fl := false, kph := .pass1 }

/-- Classification of a written base segment (KPH = CLASSIFY): EXT is written before the extension pass begins, and a
base frame ends the capture. -/
def classifyFrame (done : State → State) (s : State) : State :=
  if s.classified then startPass s.extPass { s with ext := true, kph := .pass2 }
  else done { s with ext := false }

/-- The base pass has ended. Its entries 13 and 15 are written (R103); the check speaks only of states no run reaches
(R28, R113; log 10). -/
def afterBasePass (done : State → State) (s : State) : State :=
  guardWritten markerEntries (classifyFrame done) { s with kph := .classify }

/-- The extension pass has ended: `FL <- 1`. -/
def afterExtPass (done : State → State) (s : State) : State := done { s with fl := true }

/-- A tick of a capture whose start is past. -/
def captureTick (done : State → State) (s : State) : Result :=
  match s.kph with
  | .pass1 => passTick s.basePass (afterBasePass done) s
  | .pass2 => passTick s.extPass (afterExtPass done) s
  | .classify => .fault .lostSequencer

/-- CAP (R103). -/
def capTick (s : State) : Result :=
  match s.act with
  | .accept => .next (startCapture s)
  | _ => captureTick complete s

/-- CAP (R103). -/
def execCap (s : State) : Result := command .cap capTick s

/-! ### The configured emission (R104) -/

/-- The entries EMF checks and sends: [0, FLEN). -/
def State.frameEntries (s : State) : List Nat := entries 0 s.flen

/-- The bytes of the current frame in the encoding CFG.FRAMER selects (R97, R104). -/
def State.frameBytes (s : State) : List Byte :=
  if s.framer then s.debugBytes 0 s.flen else s.compactBytes 0 s.flen

/-- EMF (R104). -/
def execEmf (s : State) : Result := command .emf (emitTick State.frameEntries State.frameBytes) s

/-! ### The cycle (R105, R106) -/

/-- Steps (a) and (b) begin. -/
def startCycle (s : State) : State := startCapture { s with is := true, cph := .b }

/-- Steps (c) and (d): interrupts resume and the emission begins, in the tick of the capture's last observation. -/
def afterCapture (s : State) : State :=
  guardWritten s.frameEntries (queueBytes State.frameBytes) { s with is := false, cph := .d }

/-- Step (e). -/
def afterEmission (done : State → State) (s : State) : State := startDelay done { s with cph := .e }

/-- A tick of CYCLE or RUN; `done` is what follows step (e). -/
def cycleTick (done : State → State) (s : State) : Result :=
  match s.act, s.cph with
  | .accept, _ => .next (startCycle s)
  | _, .b => captureTick afterCapture s
  | _, .d => sendTick (afterEmission done) s
  | _, .e => delayTick done s
  | _, _ => .fault .lostSequencer

/-- CYCLE (R105). -/
def execCycle (s : State) : Result := command .cycle (cycleTick complete) s

/-- RUN (R106): the next cycle follows with no gap (R144.4). -/
def execRun (s : State) : Result := command .run (cycleTick startCycle) s

end Sys2Proof.Machine
end

