-- ==== Sys2Proof/Machine/Detection.lean ====
section
/-! DEFINITION. Frame-length detection (spec/43_detection.md): DET. -/

namespace Sys2Proof.Machine

/-- DET's effect on written marker bits (R86): `EXT <- ext; FL <- ext`. -/
def recordClass (s : State) : State := { s with ext := s.classified, fl := s.classified }

/-- DET (R86): entries 13 and 15 are checked in that order, then classified. -/
def execDet (s : State) : Result := command .det (singleTick (guardWritten markerEntries recordClass)) s

end Sys2Proof.Machine
end

