-- ==== Sys2Proof/Machine/EdgeWait.lean ====
section
/-! DEFINITION. The edge-waiting commands (spec/41_edge_wait.md): WFE and WRE. -/

namespace Sys2Proof.Machine

/-- A tick of a wait command: the acceptance tick, then one observation a tick until the edge (R73, R75, R144). -/
def waitTick (e : Edge) (line : Line) (s : State) : Result :=
  match s.act with
  | .accept => .next { s with ews := .pre, act := .wait }
  | .wait => .next (if s.edgeEnds e line then complete (s.edgeStep e line) else s.edgeStep e line)
  | _ => .fault .lostSequencer

/-- WFE (R74). -/
def execWfe (line : Line) (s : State) : Result := command (.wfe line) (waitTick .falling line) s

/-- WRE (R76). -/
def execWre (line : Line) (s : State) : Result := command (.wre line) (waitTick .rising line) s

end Sys2Proof.Machine
end

