-- ==== Sys2Proof/Machine/Dispatch.lean ====
section
/-! DEFINITION. One arm per command: `exec i s` is one tick of command i, its acceptance tick when the block is idle. -/

namespace Sys2Proof.Machine

def exec (i : Instr) (s : State) : Host.Outcome State Fault Refusal :=
  match i with
  | .nop => Sys2Proof.Machine.execNop s
  | .wfe line => Sys2Proof.Machine.execWfe line s
  | .wre line => Sys2Proof.Machine.execWre line s
  | .smps l idx nm1 => Sys2Proof.Machine.execSmps l idx nm1 s
  | .smpl l p idx nm1 => Sys2Proof.Machine.execSmpl l p idx nm1 s
  | .det => Sys2Proof.Machine.execDet s
  | .emc start count => Sys2Proof.Machine.execEmc start count s
  | .emd start count => Sys2Proof.Machine.execEmd start count s
  | .irqoff => Sys2Proof.Machine.execIrqoff s
  | .irqon => Sys2Proof.Machine.execIrqon s
  | .dly => Sys2Proof.Machine.execDly s
  | .cap => Sys2Proof.Machine.execCap s
  | .emf => Sys2Proof.Machine.execEmf s
  | .cycle => Sys2Proof.Machine.execCycle s
  | .run => Sys2Proof.Machine.execRun s

end Sys2Proof.Machine
end

