-- ==== Sys2Proof/Machine/Bus.lean ====
section
/-! DEFINITION. The host's side of a tick (spec/20_memory.md): the register map, CMD acceptance (R58), reset (R131), and one
whole tick: the access at the boundary, then the sequencer's action (R55, R121). -/

namespace Sys2Proof.Machine

/-- The registers of the map (R41 to R46). -/
inductive Reg where
  | cmd | status | cfg | buf | finfo | reserved
deriving DecidableEq, Repr

/-- The register at a byte offset (R40, R53): `none` where the offset is misaligned. -/
def regAt (off : BitVec 5) : Option Reg :=
  match off.toNat with
  | 0x00 => some .cmd
  | 0x04 => some .status
  | 0x08 => some .cfg
  | 0x0C => some .buf
  | 0x10 => some .finfo
  | 0x14 | 0x18 | 0x1C => some .reserved
  | _ => none

/-- The BUF register (R44): a written entry's bit, and a free bit for an unwritten entry. -/
def State.bufWord (s : State) : BusWord := (s.buf &&& s.wr) ||| (Config.freeWord s.bufReads &&& ~~~ s.wr)

/-- The value a host read of a register returns (R41 to R46). -/
def State.regValue (s : State) : Reg → BusWord
  | .cmd => 0
  | .status => s.statusWord
  | .cfg => s.cfgWord
  | .buf => s.bufWord
  | .finfo => s.finfo
  | .reserved => 0

/-- A host read (R48): the data goes on the bus and nothing of the block or of the device changes; a read of BUF uses up a
free word. -/
def busRead (r : Reg) (s : State) : State :=
  { s with rdata := some (s.regValue r), bufReads := if r = .buf then s.bufReads + 1 else s.bufReads }

/-- A host write to CFG (R43). -/
def cfgWrite (v : BusWord) (s : State) : State :=
  if s.flt then s
  else if s.busy then raiseFault .cfgWriteBusy (zext32 (lowHalf v)) s
  else { s with strat := v.getLsbD 0, framer := v.getLsbD 1, longWait := v.getLsbD 2 }

/-- The sequencer's action of a tick (R55): the running command's, if one runs; a halted or idle block does nothing. -/
def sequencerTick (s : State) : Result :=
  if s.flt then .next s
  else if s.busy then
    match decodeWord s.cur with
    | some i => exec i s
    | none => .fault .lostSequencer
  else .next s

/-- A host write to CMD and the tick after it (R58, R121): halted, busy, illegal, then exec, which checks the range. -/
def cmdWrite (v : BusWord) (s : State) : Result :=
  if s.flt then .next s
  else if s.busy then .next (raiseFault .cmdOverrun (zext32 (lowHalf v)) s)
  else
    match decode v with
    | none => .next (raiseFault .illegalCommand (zext32 (lowHalf v)) s)
    | some i => exec i s

/-- The register an access reaches, or why it is refused: only words at multiples of 4 (R47, U14). -/
def accessReg (size : AccessSize) (off : BitVec 5) : Except Refusal Reg :=
  if size ≠ .word then .error .subwordAccess
  else
    match regAt off with
    | some r => .ok r
    | none => .error .misalignedAccess

/-- The effect and the rest of a tick with a write at its boundary: only CMD and CFG take one (R42, R44 to R46, R48). -/
def writeTick (r : Reg) (v : BusWord) (s : State) : Result :=
  match r with
  | .cmd => cmdWrite v s
  | .cfg => sequencerTick (cfgWrite v s)
  | .status | .buf | .finfo | .reserved => sequencerTick s

/-- One tick with rst = 0. -/
def runTick (access : Option HostAccess) (s : State) : Result :=
  match access with
  | none => sequencerTick s
  | some (.read size off) =>
    match accessReg size off with
    | .error r => .refused r
    | .ok reg => sequencerTick (busRead reg s)
  | some (.write size off v) =>
    match accessReg size off with
    | .error r => .refused r
    | .ok reg => writeTick reg v s

/-- The reset values of R28 on the same platform; the device, the host and the bus are no part of the block. -/
def State.resetBlock (s : State) : State :=
  { State.resetOn s.params with
    rdata := s.rdata, latchAns := s.latchAns, clockAns := s.clockAns, dataAns := s.dataAns,
    draws := s.draws, bufReads := s.bufReads, hostq := s.hostq }

/-- One tick with rst = 1 (R131): a host write has no effect, a read shows the boundary's state, and every piece of state
takes its reset value. DEDUCED for the read (log 11). -/
def resetTick (access : Option HostAccess) (s : State) : Result :=
  match access with
  | none => .next s.resetBlock
  | some (.read size off) =>
    match accessReg size off with
    | .error r => .refused r
    | .ok reg => .next (busRead reg s).resetBlock
  | some (.write size off _) =>
    match accessReg size off with
    | .error r => .refused r
    | .ok _ => .next s.resetBlock

/-- What the host drives for the next tick; nothing once its list is used up (log 3). -/
def State.hostNow (s : State) : HostTick := s.hostq.head?.getD { rst := false, access := none }

/-- A tick begins: the host's entry is used up, and no byte or read data of an older tick is on the ports. -/
def State.openTick (s : State) : State := { s with hostq := s.hostq.tail, tx := none, rdata := none }

/-- One whole tick. -/
def tick (s : State) : Result :=
  if s.hostNow.rst then resetTick s.hostNow.access s.openTick
  else runTick s.hostNow.access s.openTick

/-- What the host does to run the command of a table word next: one word write to CMD with rst = 0. -/
def cmdEntry (nbits w : Nat) : HostTick :=
  { rst := false, access := some (.write .word 0 (BitVec.ofNat 32 (w % 2 ^ nbits))) }

/-- The block idle and not halted, as a host needs it to write a command (R136). -/
def State.idled (s : State) : State :=
  { s with busy := false, act := .accept, flt := false, fcode := .none, finfo := 0 }

end Sys2Proof.Machine
end

