-- ==== Sys2Proof/Machine/Step.lean ====
section
/-! DEFINITION. One step is one tick (R55, R144). -/

namespace Sys2Proof.Machine

/-- One tick of the block with its host and device. -/
def step (s : State) : Host.Outcome State Fault Refusal := tick s

/-- The state whose next step runs the command of a table word: the block idle (R136) and a CMD write of the word next in
the host's list (log 12). -/
def State.withFetchWord (s : State) (nbits w : Nat) : State :=
  { s.idled with hostq := cmdEntry nbits w :: s.hostq }

end Sys2Proof.Machine
end

