-- ==== Sys2Proof/Safety.lean ====
section
/-! DEFINITION. The terms the statements use: idle and running states, whole runs, what stays the same in a tick, and the
invariant that every step keeps. -/

namespace Sys2Proof.Machine

/-- The block is idle: neither halted nor busy (R128). -/
abbrev State.Idle (s : State) : Prop := s.flt = false ∧ s.busy = false

/-- The block is in a command (R22). -/
abbrev State.Busy (s : State) : Prop := s.flt = false ∧ s.busy = true

/-- The host does nothing in the next tick. -/
abbrev State.HostQuiet (s : State) : Prop := s.hostNow.rst = false ∧ s.hostNow.access = none

/-- The host's entry that writes v to CMD. -/
abbrev cmdWriteEntry (v : BusWord) : HostTick := { rst := false, access := some (.write .word 0x00 v) }

/-- The host's entry that writes v to CFG. -/
abbrev cfgWriteEntry (v : BusWord) : HostTick := { rst := false, access := some (.write .word 0x08 v) }

/-- k ticks from s end in t, and none of them stops. -/
abbrev State.Reaches (k : Nat) (s t : State) : Prop := Host.Core.run Sys2Proof.core k s = .next t

/-- The device's answers to one falling-edge wait (R73): lows, then at least one high, then the low that ends it. -/
def edgeAnswers (w : Nat × Nat) : List Bool := List.replicate w.1 false ++ List.replicate (w.2 + 1) true ++ [false]

/-- The ticks of that wait: one an observation (R144.2). -/
def edgeTicks (w : Nat × Nat) : Nat := w.1 + w.2 + 2

/-- The ticks of the clocked bits of a pass: a wait and a DATA observation each (R78, R144). -/
def clockedTicks (ws : List (Nat × Nat)) : Nat := (ws.map fun w => edgeTicks w + 1).sum

/-- After a pass that sampled the raw levels d from entry idx on: those entries hold their negations and are written, and
every other entry is as before (R78, R85). -/
def Sampled (s t : State) (idx : Nat) (d : List Bool) : Prop :=
  ∀ j, j < 32 →
    t.bufRead j = (if idx ≤ j ∧ j < idx + d.length then !d.getD (j - idx) true else s.bufRead j) ∧
    t.written j = (if idx ≤ j ∧ j < idx + d.length then true else s.written j)

/-! ### What stays the same -/

/-- Platform, configuration and the host's side are untouched. -/
abbrev SameSetting (s t : State) : Prop :=
  t.params = s.params ∧ t.strat = s.strat ∧ t.framer = s.framer ∧ t.longWait = s.longWait ∧
  t.rdata = s.rdata ∧ t.bufReads = s.bufReads ∧ t.hostq = s.hostq

/-- BUF and WR are untouched. -/
abbrev SameBuffer (s t : State) : Prop := t.buf = s.buf ∧ t.wr = s.wr

/-- OUT and the output port are untouched. -/
abbrev SameOutput (s t : State) : Prop := t.out = s.out ∧ t.tx = s.tx

/-- FL and EXT are untouched. -/
abbrev SameLength (s t : State) : Prop := t.fl = s.fl ∧ t.ext = s.ext

/-- FLT, FCODE and FINFO are untouched. -/
abbrev SameFault (s t : State) : Prop := t.flt = s.flt ∧ t.fcode = s.fcode ∧ t.finfo = s.finfo

/-- The device has answered nothing. -/
abbrev SameDevice (s t : State) : Prop :=
  t.latchAns = s.latchAns ∧ t.clockAns = s.clockAns ∧ t.dataAns = s.dataAns ∧ t.draws = s.draws

/-- EWS, BI and SC, the variables of waits and passes, are untouched. -/
abbrev SamePass (s t : State) : Prop := t.ews = s.ews ∧ t.bi = s.bi ∧ t.sc = s.sc

/-- DC, OQ, CPH and KPH, the variables of delay, emission, cycle and capture, are untouched. -/
abbrev SameCycle (s t : State) : Prop := t.dc = s.dc ∧ t.oq = s.oq ∧ t.cph = s.cph ∧ t.kph = s.kph

/-- At most one byte was sent, and the port shows it (R26, R27, R144.2). -/
abbrev SentAtMostOne (s t : State) : Prop :=
  SameOutput s t ∨ ∃ b, t.out = s.out ++ [b] ∧ t.tx = some b

/-! ### The invariant -/

/-- A place in a pass (R78, R81): the bits before BI are written, and the next action is one the strategy has. -/
def State.InPass (s : State) (p : Pass) : Prop :=
  s.bi < p.n ∧ (∀ j, j < s.bi → s.written (p.idx + j) = true) ∧
  match s.act with
  | .latch => p.latchFirst = true ∧ s.bi = 0
  | .clock => p.legacy = false
  | .data => s.ews = .pre
  | .spin => p.legacy = true ∧ s.ews = .pre ∧ 0 < s.sc
  | .accept | .wait | .send | .delay => False

/-- A place in a capture (R103): FL stays 0 until the extension pass has ended, EXT is 1 throughout that pass. -/
def State.InCapture (s : State) : Prop :=
  s.fl = false ∧
  match s.kph with
  | .pass1 => s.InPass s.basePass
  | .pass2 => s.ext = true ∧ (∀ j, j < 16 → s.written j = true) ∧ s.InPass s.extPass
  | .classify => False

/-- Bytes wait to be sent (R92, R95). -/
abbrev State.InEmission (s : State) : Prop := s.act = .send ∧ s.oq ≠ []

/-- Ticks of the delay are to pass (R102). -/
abbrev State.InDelay (s : State) : Prop := s.act = .delay ∧ 0 < s.dc

/-- A place in a cycle (R105, R108, R109). -/
def State.InCycle (s : State) : Prop :=
  match s.cph with
  | .b => s.is = true ∧ s.InCapture
  | .d => s.is = false ∧ s.fl = s.ext ∧ s.InEmission
  | .e => s.is = false ∧ s.fl = s.ext ∧ s.InDelay
  | .a | .c => False

/-- A place in a command after its acceptance tick. -/
def State.At (s : State) : Instr → Prop
  | .wfe _ | .wre _ => s.act = .wait
  | .smps l idx nm1 => s.InPass (smpsPass l idx nm1)
  | .smpl l p idx nm1 => s.InPass (smplPass l p idx nm1)
  | .emc .. | .emd .. | .emf => s.InEmission
  | .dly => s.InDelay
  | .cap => s.InCapture
  | .cycle | .run => s.InCycle
  | .nop | .det | .irqoff | .irqon => False

/-- BUSY, CUR and the hidden sequencer variables name a place in a command in range. -/
def State.Placed (s : State) : Prop :=
  ∃ i, decodeWord s.cur = some i ∧ i.WellFormed ∧ (s.act = .accept ∨ s.At i)

/-- The fault fields agree (R23, R45, R114, R118). -/
def State.FaultFieldsAgree (s : State) : Prop :=
  (s.flt = true → s.busy = false ∧ s.is = false ∧ s.fcode ≠ .none) ∧
  (s.flt = false → s.fcode = .none ∧ s.finfo = 0) ∧
  s.finfo.toNat < 2 ^ 21

/-- The counters stay in their ranges (R12, R25). -/
def State.CountersInRange (s : State) : Prop :=
  s.bi ≤ 32 ∧ s.sc ≤ 2 * s.params.spinTicks ∧ s.dc ≤ s.params.interCycleTicks

/-- What every step keeps. -/
structure State.Inv (s : State) : Prop where
  /-- R7's constraints. -/
  admissible : s.params.Admissible
  /-- R23, R45, R114, R118. -/
  faultFields : s.FaultFieldsAgree
  /-- R12, R25. -/
  counters : s.CountersInRange
  /-- R27: the byte on the port is the last byte of OUT. -/
  port : ∀ b, s.tx = some b → s.out.getLast? = some b
  /-- No command runs: none of its actions is next. -/
  idle : s.busy = false → s.act = .accept
  /-- A command runs: the machine is at a place in it. -/
  placed : s.busy = true → s.Placed

end Sys2Proof.Machine
end

