-- ==== Sys2Proof/Certificates/Slice0/Obligations.lean ====
section
/-! DEFINITION. The statements about SRS-FE. Each docstring names the rules of spec/ it comes from. -/

open Sys2Proof Sys2Proof.Machine

/-! ### Reset -/

/-- R28: every reset value the spec gives, on every platform. BUF's own reset value is the model's choice (log 5) and no part
of this. -/
def Obligations.ResetLeavesSpecifiedValues : Prop :=
  ∀ p : Params,
    let s := State.resetOn p
    s.wr = 0 ∧ s.fl = false ∧ s.ext = false ∧ s.is = false ∧ s.busy = p.autorun ∧
    s.flt = false ∧ s.fcode.bits = 0 ∧ s.finfo = 0 ∧
    s.strat = p.rstStrat ∧ s.framer = p.rstFramer ∧ s.longWait = p.rstLongWait ∧
    s.cur = (if p.autorun then 0xE000#16 else 0x0000#16) ∧
    s.ews = .pre ∧ s.bi = 0 ∧ s.sc = 0 ∧ s.dc = 0 ∧ s.oq = [] ∧ s.cph = .a ∧ s.kph = .pass1 ∧
    s.out = [] ∧ s.tx = none ∧ s.irqSuspend = false

/-- R131: a tick with rst = 1 puts every piece of the block's state at its reset value whatever ran and whatever the host
writes; device, host list and free-value counters are the model's own and go on. BUF's reset value is log 5's. -/
def Obligations.ResetTickResetsTheBlock : Prop :=
  ∀ s : State, s.hostNow.rst = true →
    (s.hostNow.access = none ∨
      ∃ off v, s.hostNow.access = some (.write .word off v) ∧ off.toNat % 4 = 0) →
    step s = .next { State.resetOn s.params with
      latchAns := s.latchAns, clockAns := s.clockAns, dataAns := s.dataAns, draws := s.draws,
      bufReads := s.bufReads, hostq := s.hostq.tail }

/-- R131, R105, V-REG-8: with AUTORUN the first tick after reset is RUN's acceptance tick, which sets IS and turns to the
base pass; without it the block stays idle. -/
def Obligations.FirstTickAfterReset : Prop :=
  ∀ p : Params,
    (p.autorun = true →
      step (State.resetOn p) = .next { State.resetOn p with is := true, cph := .b, act := .latch }) ∧
    (p.autorun = false → step (State.resetOn p) = .next (State.resetOn p))

/-! ### Encoding -/

/-- R61 to R67: every command at every operand value is read back from its word. -/
def Obligations.DecodeReadsBackEncode : Prop :=
  ∀ i : Instr, decode (zext32 (encode i)) = some i

/-- R61, R67: a CMD value is read as a command only if it is that command's word with a zero upper half. -/
def Obligations.EncodeRestoresDecodedWord : Prop :=
  ∀ (v : BusWord) (i : Instr), decode v = some i → v = zext32 (encode i)

/-- R59: the six cases, over the value's bits, in which the decoder refuses a CMD write, and no other. -/
def Obligations.DecoderRefusesExactlyIllegalValues : Prop :=
  ∀ v : BusWord,
    let op := v.toNat / 4096 % 16
    decode v = none ↔
      v.toNat / 65536 ≠ 0 ∨
      op = 0xF ∨
      (op ∈ [0x0, 0x5, 0x8, 0x9, 0xA, 0xB, 0xC, 0xD, 0xE] ∧ v.toNat % 4096 ≠ 0) ∨
      (op ∈ [0x1, 0x2] ∧ (v.toNat / 4 % 1024 ≠ 0 ∨ v.toNat % 4 = 3)) ∨
      (op = 0x3 ∧ v.toNat / 1024 % 2 = 1) ∨
      (op ∈ [0x6, 0x7] ∧ v.toNat / 2048 % 2 = 1)

/-- R60: the two cases, over the value's bits, in which a legal command is out of range, and no other. -/
def Obligations.RangeCheckMatchesWordFields : Prop :=
  ∀ (v : BusWord) (i : Instr), decode v = some i →
    let op := v.toNat / 4096 % 16
    let low := v.toNat % 32
    let mid := v.toNat / 32 % 32
    let count := v.toNat / 32 % 64
    (i.inRange = false ↔
      (op ∈ [0x3, 0x4] ∧ mid + (low + 1) > 32) ∨ (op ∈ [0x6, 0x7] ∧ (count > 32 ∨ low + count > 32)))

/-- R71, R72: the words the spec writes out decode to the commands it names. -/
def Obligations.WrittenOutWordsDecode : Prop :=
  decode 0x1000 = some (.wfe .latch) ∧ decode 0x1001 = some (.wfe .clock) ∧
  decode 0x2002 = some (.wre .data) ∧
  decode 0x380F = some (.smps true 0 15) ∧ decode 0x320F = some (.smps false 16 15) ∧
  decode 0x480F = some (.smpl true false 0 15) ∧ decode 0x460F = some (.smpl false true 16 15) ∧
  decode 0x4C0F = some (.smpl true true 0 15) ∧
  decode 0x6200 = some (.emc 0 16) ∧ decode 0x6400 = some (.emc 0 32) ∧
  decode 0x6210 = some (.emc 16 16) ∧
  decode 0x7200 = some (.emd 0 16) ∧ decode 0x7400 = some (.emd 0 32) ∧ decode 0x70A3 = some (.emd 3 5)

/-! ### Ticks: a step runs the decoded command -/

/-- R58: a step in which the host writes a legal command to CMD of an idle block is that command's tick, on the state the
tick opens with. -/
def Obligations.StepRunsTheWrittenCommand : Prop :=
  ∀ (s : State) (q : List HostTick) (v : BusWord) (i : Instr), s.Idle →
    s.hostq = cmdWriteEntry v :: q → decode v = some i →
    step s = exec i { s with hostq := q, tx := none, rdata := none }

/-- R55, R58: a step of a busy block is the next tick of the command CUR holds. -/
def Obligations.StepContinuesTheRunningCommand : Prop :=
  ∀ (s : State) (i : Instr), s.Busy → s.HostQuiet → decodeWord s.cur = some i →
    step s = exec i { s with hostq := s.hostq.tail, tx := none, rdata := none }

/-- R128: an idle block to which the host does nothing does nothing. -/
def Obligations.IdleBlockStaysAsItIs : Prop :=
  ∀ s : State, s.Idle → s.HostQuiet →
    step s = .next { s with hostq := s.hostq.tail, tx := none, rdata := none }

/-! ### Faults -/

/-- R58 to R60, R114, R118, R120: on an idle block a CMD write that is no legal command faults with code 1, and a legal command
out of range with code 2; neither does anything else. -/
def Obligations.RejectedCommandsFault : Prop :=
  (∀ (s : State) (q : List HostTick) (v : BusWord), s.Idle →
    s.hostq = cmdWriteEntry v :: q → decode v = none →
    step s = .next { s with
      hostq := q, tx := none, rdata := none, flt := true, fcode := .illegalCommand,
      finfo := BitVec.ofNat 32 (v.toNat % 65536), busy := false, is := false, act := .accept }) ∧
  (∀ (s : State) (i : Instr), s.Idle → i.inRange = false →
    exec i s = .next { s with
      flt := true, fcode := .operandRange, finfo := BitVec.ofNat 32 (encode i).toNat,
      busy := false, is := false, act := .accept })

/-- R58, R121: a CMD write of any value to a busy block is an overrun before the running command's next action; it stops the
command, clears IS and keeps everything else. -/
def Obligations.OverrunStopsTheRunningCommand : Prop :=
  ∀ (s : State) (q : List HostTick) (v : BusWord), s.Busy → s.hostq = cmdWriteEntry v :: q →
    step s = .next { s with
      hostq := q, tx := none, rdata := none, flt := true, fcode := .cmdOverrun,
      finfo := BitVec.ofNat 32 (v.toNat % 65536), busy := false, is := false, act := .accept }

/-- R43: a CFG write sets the three bits of an idle block and ignores the rest of the value, faults on a busy one with CFG
unchanged, has no effect on a halted one; a read returns the three bits. -/
def Obligations.CfgRegisterBehaviour : Prop :=
  (∀ (s : State) (q : List HostTick) (v : BusWord), s.hostq = cfgWriteEntry v :: q →
    (s.flt = true → step s = .next { s with hostq := q, tx := none, rdata := none }) ∧
    (s.Busy → step s = .next { s with
      hostq := q, tx := none, rdata := none, flt := true, fcode := .cfgWriteBusy,
      finfo := BitVec.ofNat 32 (v.toNat % 65536), busy := false, is := false, act := .accept }) ∧
    (s.Idle → step s = .next { s with
      hostq := q, tx := none, rdata := none,
      strat := v.getLsbD 0, framer := v.getLsbD 1, longWait := v.getLsbD 2 })) ∧
  (∀ (s t : State), s.hostNow = { rst := false, access := some (.read .word 0x08) } → step s = .next t →
    t.rdata = some (BitVec.ofNat 32 (s.strat.toNat + 2 * s.framer.toNat + 4 * s.longWait.toNat)))

/-- R119, R121, R122: while FLT = 1 a halted block takes every access of the interface, and nothing but a reset changes it: no
line is observed, no byte is sent, no write has an effect, no second fault is recorded. -/
def Obligations.HaltedBlockStaysHalted : Prop :=
  ∀ s : State, s.flt = true → s.hostNow.rst = false →
    (s.hostNow.access = none ∨
      ∃ off : BitVec 5, off.toNat % 4 = 0 ∧
        (s.hostNow.access = some (.read .word off) ∨ ∃ v, s.hostNow.access = some (.write .word off v))) →
    ∃ t, step s = .next t ∧ SameFault s t ∧ SameBuffer s t ∧ SameLength s t ∧ SamePass s t ∧ SameCycle s t ∧
      t.out = s.out ∧ t.tx = none ∧ t.is = s.is ∧ t.busy = s.busy ∧ t.act = s.act ∧ t.cur = s.cur ∧
      t.params = s.params ∧ t.strat = s.strat ∧ t.framer = s.framer ∧ t.longWait = s.longWait ∧
      t.latchAns = s.latchAns ∧ t.clockAns = s.clockAns ∧ t.dataAns = s.dataAns

/-! ### Host registers -/

/-- R41, R42, R45, R46, R49, R142: a read of CMD, STATUS, FINFO or a reserved offset returns the word as the block stands at
the boundary, also while a command runs. -/
def Obligations.HostReadShowsTheBoundaryState : Prop :=
  ∀ (s t : State) (off : BitVec 5),
    s.hostNow = { rst := false, access := some (.read .word off) } → step s = .next t →
    (off = 0x00 → t.rdata = some 0) ∧
    (off = 0x04 → t.rdata = some (BitVec.ofNat 32
      (s.busy.toNat + 2 * s.is.toNat + 4 * s.fl.toNat + 8 * s.ext.toNat + 16 * s.flt.toNat
        + 256 * s.fcode.bits.toNat))) ∧
    (off = 0x10 → t.rdata = some s.finfo) ∧
    (off ∈ [0x14, 0x18, 0x1C] → t.rdata = some 0)

/-- R44, R52: a read of BUF shows, bit i for entry i, every written entry as it stands at the boundary. Nothing is said of an
unwritten entry's bit, which is free (log 6). -/
def Obligations.BufReadShowsWrittenEntries : Prop :=
  ∀ s t : State, s.hostNow = { rst := false, access := some (.read .word 0x0C) } → step s = .next t →
    ∃ w : BusWord, t.rdata = some w ∧
      ∀ i, i < 32 → s.wr.getLsbD i = true → w.getLsbD i = s.buf.getLsbD i

/-- R48: a host read has no side effect. A read of an idle or halted block changes nothing of it. In every state, busy ones
too, the tick with the read and the same tick with no access end alike but for the read data and the model's own counter of
BUF reads (log 15): where one has a next state, so has the other. -/
def Obligations.HostReadHasNoSideEffect : Prop :=
  (∀ (s : State) (off : BitVec 5), s.busy = false → off.toNat % 4 = 0 →
    s.hostNow = { rst := false, access := some (.read .word off) } →
    ∃ w n, step s = .next { s with hostq := s.hostq.tail, tx := none, rdata := some w, bufReads := n }) ∧
  (∀ (s : State) (q : List HostTick) (off : BitVec 5), off.toNat % 4 = 0 →
    let reading := { s with hostq := { rst := false, access := some (.read .word off) } :: q }
    let quiet := { s with hostq := { rst := false, access := none } :: q }
    ∃ w,
      (∀ t, step quiet = .next t → step reading = .next { t with
        rdata := some w, bufReads := if off = 0x0C then s.bufReads + 1 else s.bufReads }) ∧
      (∀ t, step reading = .next t → step quiet = .next { t with rdata := none, bufReads := s.bufReads }))

/-- R42, R44, R45, R46: a write to STATUS, BUF, FINFO or a reserved offset makes no difference to the tick. -/
def Obligations.WritesToReadOnlyRegistersHaveNoEffect : Prop :=
  ∀ (s : State) (q : List HostTick) (off : BitVec 5) (v : BusWord),
    off ∈ [0x04, 0x0C, 0x10, 0x14, 0x18, 0x1C] →
    step { s with hostq := { rst := false, access := some (.write .word off v) } :: q } =
      step { s with hostq := { rst := false, access := none } :: q }

/-- R47: byte, halfword and misaligned accesses are no part of the interface and are refused by name. -/
def Obligations.OtherAccessesAreRefused : Prop :=
  ∀ (s : State) (size : AccessSize) (off : BitVec 5) (v : BusWord) (b : Bool) (q : List HostTick),
    (s.hostq = { rst := b, access := some (.read size off) } :: q ∨
      s.hostq = { rst := b, access := some (.write size off v) } :: q) →
    (size ≠ .word → step s = .refused .subwordAccess) ∧
    (size = .word → off.toNat % 4 ≠ 0 → step s = .refused .misalignedAccess)

/-! ### Edge waits -/

/-- R58, R73, R75, R144: the acceptance tick of WFE and WRE observes nothing and begins in PRE. -/
def Obligations.WaitsBeginInPre : Prop :=
  ∀ (s : State) (line : Line), s.Idle →
    exec (.wfe line) s = .next { s with
      cur := encode (.wfe line), busy := true, ews := .pre, act := .wait } ∧
    exec (.wre line) s = .next { s with
      cur := encode (.wre line), busy := true, ews := .pre, act := .wait }

/-- R73, R74: each tick of WFE is one observation: high turns PRE to POST, low in POST ends the command, any other answer
waits on. -/
def Obligations.WfeObservesHighThenLow : Prop :=
  ∀ (s : State) (line : Line), s.Busy → s.act = .wait →
    (s.ews = .pre → s.observed line = true →
      exec (.wfe line) s = .next { s.afterObs line with ews := .post }) ∧
    (s.ews = .pre → s.observed line = false → exec (.wfe line) s = .next (s.afterObs line)) ∧
    (s.ews = .post → s.observed line = true → exec (.wfe line) s = .next (s.afterObs line)) ∧
    (s.ews = .post → s.observed line = false →
      exec (.wfe line) s = .next { s.afterObs line with ews := .pre, busy := false, act := .accept })

/-- R75, R76: WRE is the mirror: low first, then high. -/
def Obligations.WreObservesLowThenHigh : Prop :=
  ∀ (s : State) (line : Line), s.Busy → s.act = .wait →
    (s.ews = .pre → s.observed line = false →
      exec (.wre line) s = .next { s.afterObs line with ews := .post }) ∧
    (s.ews = .pre → s.observed line = true → exec (.wre line) s = .next (s.afterObs line)) ∧
    (s.ews = .post → s.observed line = false → exec (.wre line) s = .next (s.afterObs line)) ∧
    (s.ews = .post → s.observed line = true →
      exec (.wre line) s = .next { s.afterObs line with ews := .pre, busy := false, act := .accept })

/-- R10, R14, R48: an observation returns the device's next answer for the line and uses up that answer alone. -/
def Obligations.ObservationUsesUpOneAnswer : Prop :=
  ∀ (s : State) (line : Line) (v : Bool) (rest : List Bool), s.answers line = v :: rest →
    s.observed line = v ∧ (s.afterObs line).answers line = rest ∧
    (∀ other, other ≠ line → (s.afterObs line).answers other = s.answers other) ∧
    (s.afterObs line).draws = s.draws ∧
    { s.afterObs line with
      latchAns := s.latchAns, clockAns := s.clockAns, dataAns := s.dataAns } = s

/-- R73 to R77, R144: from acceptance on, a WFE whose line answers lows, highs and then a low is busy until that low and ends in
its tick, and so a WRE with highs and lows exchanged; buffer, FL, EXT, IS and OUT are as before. -/
def Obligations.WaitsEndAtTheirEdge : Prop :=
  ∀ (s : State) (line : Line) (i : Instr) (w : Nat × Nat) (rest : List Bool), s.Idle →
    s.hostq = [cmdWriteEntry (zext32 (encode i))] →
    (i = .wfe line ∧ s.answers line = edgeAnswers w ++ rest ∨
      i = .wre line ∧ s.answers line = (edgeAnswers w).map (fun v => !v) ++ rest) →
    (∃ t, s.Reaches (1 + edgeTicks w) t ∧ t.Idle ∧ t.answers line = rest ∧
      SameBuffer s t ∧ SameLength s t ∧ t.is = s.is ∧ t.out = s.out) ∧
    ∀ k, 0 < k → k < 1 + edgeTicks w → ∃ t, s.Reaches k t ∧ t.Busy

/-- R77, R84, R115: a wait whose line never shows the level it wants (WFE, WRE, or the LATCH or CLOCK wait inside a pass of SMPS,
SMPL, CAP, CYCLE or RUN) keeps the block busy at the same place for as many ticks as one likes, without a fault: a hang. The
entries already written stay written, and buffer, flags and output are as before. -/
def Obligations.WaitHangsWithoutFault : Prop :=
  ∀ (s : State) (i : Instr) (line : Line) (level : Bool) (k : Nat) (rest : List Bool), s.Busy → s.hostq = [] →
    s.cur = encode i →
    (i = .wfe line ∧ s.act = .wait ∧ level = decide (s.ews = .post) ∨
      i = .wre line ∧ s.act = .wait ∧ level = decide (s.ews = .pre) ∨
      ((∃ l idx nm1, i = .smps l idx nm1) ∨ (∃ l p idx nm1, i = .smpl l p idx nm1) ∨
          i = .cap ∧ s.kph ≠ .classify ∨ (i = .cycle ∨ i = .run) ∧ s.cph = .b ∧ s.kph ≠ .classify) ∧
        (line = .latch ∧ s.act = .latch ∨ line = .clock ∧ s.act = .clock) ∧ level = decide (s.ews = .post)) →
    s.answers line = List.replicate k level ++ rest →
    ∃ t, s.Reaches k t ∧ t.Busy ∧ t.ews = s.ews ∧ t.act = s.act ∧ t.bi = s.bi ∧ t.cur = s.cur ∧
      t.answers line = rest ∧ SameFault s t ∧ SameBuffer s t ∧ SameLength s t ∧ t.is = s.is ∧ t.out = s.out

/-- R29, R77: the frame of WFE and WRE: platform, configuration, buffer, output, flags, fault fields and every hidden variable
but EWS are as before, and no other line has answered. -/
def Obligations.WaitsChangeNothingElse : Prop :=
  ∀ (s t : State) (line : Line), (exec (.wfe line) s = .next t ∨ exec (.wre line) s = .next t) →
    SameSetting s t ∧ SameBuffer s t ∧ SameOutput s t ∧ SameLength s t ∧ SameFault s t ∧
    SameCycle s t ∧ t.is = s.is ∧ t.bi = s.bi ∧ t.sc = s.sc ∧
    (∀ other, other ≠ line → t.answers other = s.answers other)

/-! ### Sampling -/

/-- R17, R18: a buffer write stores one entry, marks it written, and leaves every other entry as it was. -/
def Obligations.BufWriteStoresOneEntry : Prop :=
  ∀ (s : State) (i j : Nat) (v : Bool), i < 32 → j < 32 →
    (s.bufWrite i v).bufRead j = (if j = i then v else s.bufRead j) ∧
    (s.bufWrite i v).written j = (if j = i then true else s.written j)

/-- R78, R81, R144: the acceptance ticks of SMPS and SMPL in range: LATCH comes first with L = 1; else CLOCK for SMPS, and
for SMPL a spin with P = 1 or DATA at once. -/
def Obligations.SamplingCommandsBegin : Prop :=
  ∀ (s : State) (l p : Bool) (idx nm1 : BitVec 5), s.Idle → 1 ≤ s.params.spinTicks →
    idx.toNat + nm1.toNat + 1 ≤ 32 →
    exec (.smps l idx nm1) s = .next { s with
      cur := encode (.smps l idx nm1), busy := true, bi := 0, ews := .pre,
      act := if l then .latch else .clock } ∧
    exec (.smpl l p idx nm1) s = .next { s with
      cur := encode (.smpl l p idx nm1), busy := true, bi := 0, ews := .pre,
      sc := if !l && p then (if s.longWait then 2 * s.params.spinTicks else s.params.spinTicks) else s.sc,
      act := if l then .latch else if p then .spin else .data }

/-- R73, R78: SMPS waits for its LATCH and CLOCK edges one observation a tick, and turns from LATCH to CLOCK and from CLOCK to
DATA at the observation that completes the edge (R79). -/
def Obligations.SmpsWaitsForItsEdges : Prop :=
  ∀ (s : State) (l : Bool) (idx nm1 : BitVec 5) (line : Line), s.Busy →
    (s.act = .latch ∧ line = .latch ∨ s.act = .clock ∧ line = .clock) →
    exec (.smps l idx nm1) s = .next
      (if s.ews = .pre then { s.afterObs line with ews := if s.observed line then .post else .pre }
       else if s.observed line then s.afterObs line
       else { s.afterObs line with ews := .pre, act := if line = .latch then .clock else .data })

/-- R78, R80, R85: the DATA observation of bit BI of an SMPS stores its negation at entry idx + BI; after the last bit the
command has ended, else the next CLOCK wait begins. -/
def Obligations.SmpsStoresTheNegatedLevel : Prop :=
  ∀ (s : State) (l : Bool) (idx nm1 : BitVec 5), s.Busy → s.act = .data →
    (s.bi < nm1.toNat → exec (.smps l idx nm1) s = .next
      { (s.afterObs .data).bufWrite (idx.toNat + s.bi) (!s.observed .data) with
        bi := s.bi + 1, act := .clock }) ∧
    (s.bi = nm1.toNat → exec (.smps l idx nm1) s = .next
      { (s.afterObs .data).bufWrite (idx.toNat + s.bi) (!s.observed .data) with
        bi := s.bi + 1, busy := false, act := .accept })

/-- R81 to R83: the ticks of SMPL after its acceptance tick. The DATA observation of bit BI stores its negation at entry
idx + BI; after the last bit the command has ended with no spin, else a spin of S ticks begins. A spin observes nothing and
counts one down a tick. The LATCH wait turns to the leading spin with P = 1 and to DATA without. -/
def Obligations.SmplSamplesAndSpins : Prop :=
  ∀ (s : State) (l p : Bool) (idx nm1 : BitVec 5), s.Busy → 1 ≤ s.params.spinTicks →
    let spin := if s.longWait then 2 * s.params.spinTicks else s.params.spinTicks
    (s.act = .data → s.bi < nm1.toNat → exec (.smpl l p idx nm1) s = .next
      { (s.afterObs .data).bufWrite (idx.toNat + s.bi) (!s.observed .data) with
        bi := s.bi + 1, act := .spin, sc := spin }) ∧
    (s.act = .data → s.bi = nm1.toNat → exec (.smpl l p idx nm1) s = .next
      { (s.afterObs .data).bufWrite (idx.toNat + s.bi) (!s.observed .data) with
        bi := s.bi + 1, busy := false, act := .accept }) ∧
    (s.act = .spin → exec (.smpl l p idx nm1) s = .next
      { s with sc := s.sc - 1, act := if s.sc ≤ 1 then .data else .spin }) ∧
    (s.act = .latch → exec (.smpl l p idx nm1) s = .next
      (if s.ews = .pre then { s.afterObs .latch with ews := if s.observed .latch then .post else .pre }
       else if s.observed .latch then s.afterObs .latch
       else { s.afterObs .latch with
         ews := .pre, act := if p then .spin else .data, sc := if p then spin else s.sc }))

/-- R78 to R80, R84, R144: a whole SMPS, from its CMD write to its end, on any device that gives every edge it waits for: it
is busy up to the tick of its last DATA observation and ends in that tick, the n entries from idx on hold the negated levels in
order, and every other entry, FL, EXT, IS, OUT and the fault fields are as before. -/
def Obligations.SmpsCapturesAWholePass : Prop :=
  ∀ (s : State) (l : Bool) (idx nm1 : BitVec 5) (wl : Nat × Nat) (ws : List (Nat × Nat)) (d lr cr dr : List Bool),
    s.Idle → (Instr.smps l idx nm1).WellFormed →
    s.hostq = [cmdWriteEntry (zext32 (encode (.smps l idx nm1)))] →
    d.length = nm1.toNat + 1 → ws.length = d.length →
    s.latchAns = (if l then edgeAnswers wl else []) ++ lr →
    s.clockAns = ws.flatMap edgeAnswers ++ cr → s.dataAns = d ++ dr →
    let ticks := 1 + (if l then edgeTicks wl else 0) + clockedTicks ws
    (∃ t, s.Reaches ticks t ∧ t.Idle ∧
      Sampled s t idx.toNat d ∧ t.latchAns = lr ∧ t.clockAns = cr ∧ t.dataAns = dr ∧
      SameLength s t ∧ t.is = s.is ∧ t.out = s.out ∧ SameFault s t) ∧
    ∀ k, 0 < k → k < ticks → ∃ t, s.Reaches k t ∧ t.Busy

/-- R81 to R83, R139, R144: a whole SMPL: n DATA observations, n - 1 spins between them and one before the first with P = 1,
each of S ticks; it is busy for that many ticks and ends in the last of them; CLOCK is never observed. -/
def Obligations.SmplCapturesAWholePass : Prop :=
  ∀ (s : State) (l p : Bool) (idx nm1 : BitVec 5) (wl : Nat × Nat) (d lr dr : List Bool),
    s.Idle → (Instr.smpl l p idx nm1).WellFormed → 1 ≤ s.params.spinTicks →
    s.hostq = [cmdWriteEntry (zext32 (encode (.smpl l p idx nm1)))] →
    d.length = nm1.toNat + 1 →
    s.latchAns = (if l then edgeAnswers wl else []) ++ lr → s.dataAns = d ++ dr →
    let spin := if s.longWait then 2 * s.params.spinTicks else s.params.spinTicks
    let ticks := 1 + (if l then edgeTicks wl else 0) + (if p then spin else 0) + (nm1.toNat + 1) + nm1.toNat * spin
    (∃ t, s.Reaches ticks t ∧ t.Idle ∧
      Sampled s t idx.toNat d ∧ t.latchAns = lr ∧ t.clockAns = s.clockAns ∧ t.dataAns = dr ∧
      SameLength s t ∧ t.is = s.is ∧ t.out = s.out ∧ SameFault s t) ∧
    ∀ k, 0 < k → k < ticks → ∃ t, s.Reaches k t ∧ t.Busy

/-- R29, R80, R82: the frame of SMPS and SMPL: a tick leaves alone every entry but idx + BI, and that one too unless it is the
tick of a DATA observation; and every flag, the configuration and the output. -/
def Obligations.SamplingChangesNothingElse : Prop :=
  ∀ (s t : State) (l p : Bool) (idx nm1 : BitVec 5),
    idx.toNat + nm1.toNat + 1 ≤ 32 →
    (exec (.smps l idx nm1) s = .next t ∨ exec (.smpl l p idx nm1) s = .next t) →
    SameSetting s t ∧ SameOutput s t ∧ SameLength s t ∧ SameFault s t ∧ SameCycle s t ∧ t.is = s.is ∧
    ∀ j, j < 32 → (s.act = .data → s.busy = true → j ≠ idx.toNat + s.bi) →
      t.bufRead j = s.bufRead j ∧ t.written j = s.written j

/-! ### Detection -/

/-- R86, R87: DET of an idle block takes one tick. With entries 13 and 15 written it records m or not t in EXT and FL (base
exactly for m = 0, t = 1); else it faults with code 5 on the lower unwritten one of the two and writes neither EXT nor FL. -/
def Obligations.DetClassifiesOrFaults : Prop :=
  ∀ s : State, s.Idle →
    (s.written 13 = true → s.written 15 = true →
      exec .det s = .next { s with
        cur := 0x5000, act := .accept,
        ext := s.bufRead 15 || !s.bufRead 13, fl := s.bufRead 15 || !s.bufRead 13 }) ∧
    (s.written 13 = false ∨ s.written 15 = false →
      exec .det s = .next { s with
        cur := 0x5000, flt := true, fcode := .unwrittenRead, busy := false, is := false, act := .accept,
        finfo := if s.written 13 then 0x000F5000 else 0x000D5000 })

/-- R29, R86, R89: the frame of DET: platform, configuration, buffer and output are as before and no line has answered; a
faulting DET leaves FL and EXT, one that does not fault leaves IS and the fault fields. -/
def Obligations.DetChangesNothingElse : Prop :=
  ∀ s t : State, exec .det s = .next t →
    SameSetting s t ∧ SameBuffer s t ∧ SameOutput s t ∧ SameDevice s t ∧ SamePass s t ∧ SameCycle s t ∧
    (t.flt = true → SameLength s t) ∧ (t.flt = false → t.is = s.is ∧ SameFault s t)

/-! ### Framing -/

/-- R91, L1.3: a compact frame is count + 1 bytes: byte i is the marker exactly for a set entry start + i, else 0x00, and the
last byte is 0x0A. -/
def Obligations.CompactFrameContent : Prop :=
  ∀ (s : State) (start count : Nat),
    (s.compactBytes start count).length = count + 1 ∧
    (s.compactBytes start count)[count]? = some 0x0A ∧
    ∀ i, i < count → (s.compactBytes start count)[i]? =
      some (if s.bufRead (start + i) then s.params.oneMarker else 0x00)

/-- R94, R96: a debug frame byte by byte: start prefix digits, the prefix separator, then digit i of the count at place
start + 1 + i + i / 8, a separator before every digit whose i is a positive multiple of 8, one after a final full group if the
platform asks for it, and the newline last. Prefix digit j shows entry j and digit i of the count entry start + i, 0x31 for a
set one and 0x30 else. Its length and number of digits. -/
def Obligations.DebugFrameContent : Prop :=
  ∀ (s : State) (start count : Nat),
    let bytes := s.debugBytes start count
    bytes.length =
      start + count + (if s.params.dbgTrailingSep then count / 8 else if count = 0 then 0 else (count - 1) / 8) + 2 ∧
    (bytes.filter fun b => b == 0x30 || b == 0x31).length = start + count ∧
    (∀ j, j < start → bytes[j]? = some (if s.bufRead j then 0x31 else 0x30)) ∧
    bytes[start]? = some 0x7C ∧
    (∀ i, i < count → bytes[start + 1 + i + i / 8]? = some (if s.bufRead (start + i) then 0x31 else 0x30)) ∧
    (∀ i, 0 < i → i < count → i % 8 = 0 → bytes[start + i + i / 8]? = some 0x7C) ∧
    (s.params.dbgTrailingSep = true → 0 < count → count % 8 = 0 →
      bytes[start + count + count / 8]? = some 0x7C) ∧
    bytes[bytes.length - 1]? = some 0x0A

/-- R93, R96: on an admissible platform each frame, in either encoding, has exactly one 0x0A, its last byte. -/
def Obligations.FramesEndAtTheirOnlyNewline : Prop :=
  ∀ (s : State) (start count : Nat), s.params.Admissible →
    ((s.compactBytes start count).count 0x0A = 1 ∧ (s.compactBytes start count).getLast? = some 0x0A) ∧
    ((s.debugBytes start count).count 0x0A = 1 ∧ (s.debugBytes start count).getLast? = some 0x0A)

/-- R90, R92, R95, R104: EMC, EMD and EMF of an idle block, in range and with every entry they read written, queue their bytes
in the acceptance tick and send none yet. -/
def Obligations.EmissionsBegin : Prop :=
  (∀ (s : State) (start : BitVec 5) (count : BitVec 6), s.Idle → start.toNat + count.toNat ≤ 32 →
    ((∀ j, start.toNat ≤ j → j < start.toNat + count.toNat → s.written j = true) →
      exec (.emc start count) s = .next { s with
        cur := encode (.emc start count), busy := true, act := .send,
        oq := s.compactBytes start.toNat count.toNat }) ∧
    ((∀ j, j < start.toNat + count.toNat → s.written j = true) →
      exec (.emd start count) s = .next { s with
        cur := encode (.emd start count), busy := true, act := .send,
        oq := s.debugBytes start.toNat count.toNat })) ∧
  (∀ s : State, s.Idle → (∀ j, j < (if s.fl then 32 else 16) → s.written j = true) →
    exec .emf s = .next { s with
      cur := 0xC000, busy := true, act := .send,
      oq := if s.framer then s.debugBytes 0 (if s.fl then 32 else 16)
            else s.compactBytes 0 (if s.fl then 32 else 16) })

/-- R90, R114, R118: EMC, EMD and EMF of an idle block fault with code 5 on the lowest unwritten entry k they read, and send
nothing. -/
def Obligations.EmissionsFaultOnUnwrittenEntries : Prop :=
  ∀ (s : State) (start : BitVec 5) (count : BitVec 6) (i : Instr) (lo hi k : Nat), s.Idle → i.WellFormed →
    (i = .emc start count ∧ lo = start.toNat ∧ hi = start.toNat + count.toNat ∨
      i = .emd start count ∧ lo = 0 ∧ hi = start.toNat + count.toNat ∨
      i = .emf ∧ lo = 0 ∧ hi = (if s.fl then 32 else 16)) →
    lo ≤ k → k < hi → s.written k = false → (∀ j, lo ≤ j → j < k → s.written j = true) →
    exec i s = .next { s with
      cur := encode i, flt := true, fcode := .unwrittenRead, busy := false, is := false, act := .accept,
      finfo := BitVec.ofNat 32 (k * 65536 + (encode i).toNat) }

/-- R27, R92, R95, R104, R144: each further tick of EMC, EMD and EMF sends the next byte; the tick of the last byte ends the
command. -/
def Obligations.EmissionsSendAByteATick : Prop :=
  ∀ (s : State) (start : BitVec 5) (count : BitVec 6) (b : Byte) (rest : List Byte) (i : Instr),
    (i = .emc start count ∨ i = .emd start count ∨ i = .emf) → s.Busy → s.act = .send → s.oq = b :: rest →
    exec i s = .next { s with
      oq := rest, out := s.out ++ [b], tx := some b,
      busy := !rest.isEmpty, act := if rest.isEmpty then .accept else .send }

/-- R90 to R92, R94, R95, R104, R144: a whole EMC, EMD or EMF whose every entry it checks is written (EMC those it sends, EMD the
prefix too, EMF the current frame) appends exactly its frame to OUT, is busy for one tick more than the frame has bytes, and
ends in the tick of the last byte. -/
def Obligations.EmissionsAppendTheWholeFrame : Prop :=
  ∀ (s : State) (start : BitVec 5) (count : BitVec 6) (i : Instr) (lo hi : Nat) (bytes : List Byte),
    s.Idle → i.WellFormed → s.hostq = [cmdWriteEntry (zext32 (encode i))] →
    (i = .emc start count ∧ lo = start.toNat ∧ hi = start.toNat + count.toNat ∧
        bytes = s.compactBytes start.toNat count.toNat ∨
      i = .emd start count ∧ lo = 0 ∧ hi = start.toNat + count.toNat ∧
        bytes = s.debugBytes start.toNat count.toNat ∨
      i = .emf ∧ lo = 0 ∧ hi = (if s.fl then 32 else 16) ∧
        bytes = (if s.framer then s.debugBytes 0 hi else s.compactBytes 0 hi)) →
    (∀ j, lo ≤ j → j < hi → s.written j = true) →
    (∃ t, s.Reaches (1 + bytes.length) t ∧ t.Idle ∧ t.out = s.out ++ bytes ∧
      SameBuffer s t ∧ SameLength s t ∧ SameDevice s t ∧ t.is = s.is) ∧
    ∀ k, 0 < k → k < 1 + bytes.length → ∃ t, s.Reaches k t ∧ t.Busy

/-- R29, R92, R95, R98, R104: the frame of EMC, EMD and EMF: no line is observed, no entry or flag changes but by the fault,
and at most one byte is sent a tick. -/
def Obligations.EmissionsChangeNothingElse : Prop :=
  ∀ (s t : State) (start : BitVec 5) (count : BitVec 6),
    (exec (.emc start count) s = .next t ∨ exec (.emd start count) s = .next t ∨ exec .emf s = .next t) →
    SameSetting s t ∧ SameBuffer s t ∧ SameDevice s t ∧ SameLength s t ∧ SamePass s t ∧
    t.dc = s.dc ∧ t.cph = s.cph ∧ t.kph = s.kph ∧ SentAtMostOne s t ∧
    (t.flt = true → SameOutput s t) ∧ (t.flt = false → t.is = s.is ∧ SameFault s t)

/-! ### Control -/

/-- R99 to R101: NOP, IRQOFF and IRQON of an idle block end in their acceptance tick; NOP changes CUR alone, IRQOFF sets IS and
IRQON clears it, whatever it was. -/
def Obligations.OneTickCommandsComplete : Prop :=
  ∀ s : State, s.Idle →
    exec .nop s = .next { s with cur := 0x0000, act := .accept } ∧
    exec .irqoff s = .next { s with cur := 0x8000, act := .accept, is := true } ∧
    exec .irqon s = .next { s with cur := 0x9000, act := .accept, is := false }

/-- R102: DLY of an idle block loads DC; each further tick counts one down, and the tick in which DC reaches 0 ends the command.
A delay of 0 ends in the acceptance tick. -/
def Obligations.DlyCountsDownAndCompletes : Prop :=
  ∀ s : State,
    (s.Idle → s.params.interCycleTicks = 0 →
      exec .dly s = .next { s with cur := 0xA000, act := .accept, dc := 0 }) ∧
    (s.Idle → 0 < s.params.interCycleTicks →
      exec .dly s = .next { s with
        cur := 0xA000, busy := true, act := .delay, dc := s.params.interCycleTicks }) ∧
    (s.Busy → s.act = .delay → 1 < s.dc → exec .dly s = .next { s with dc := s.dc - 1 }) ∧
    (s.Busy → s.act = .delay → s.dc = 1 →
      exec .dly s = .next { s with dc := 0, busy := false, act := .accept })

/-- R102, R144: a whole DLY keeps the block busy for exactly INTERCYCLE_TICKS ticks after its acceptance tick and leaves every
flag, entry and byte alone. -/
def Obligations.DlyTakesTheInterCycleTicks : Prop :=
  ∀ s : State, s.Idle → s.hostq = [cmdWriteEntry 0xA000] →
    (∃ t, s.Reaches (1 + s.params.interCycleTicks) t ∧ t.Idle ∧ SameBuffer s t ∧ SameLength s t ∧
      SameDevice s t ∧ t.is = s.is ∧ t.out = s.out) ∧
    ∀ k, 0 < k → k < 1 + s.params.interCycleTicks → ∃ t, s.Reaches k t ∧ t.Busy

/-- R29, R99 to R102: the frame of NOP, IRQOFF, IRQON and DLY: all but CUR, BUSY and the next action is as before, save IS for
IRQOFF and IRQON and DC for DLY. -/
def Obligations.OneTickCommandsChangeNothingElse : Prop :=
  ∀ (s t : State) (i : Instr), i ∈ [Instr.nop, .irqoff, .irqon, .dly] → exec i s = .next t →
    SameSetting s t ∧ SameBuffer s t ∧ SameOutput s t ∧ SameLength s t ∧ SameFault s t ∧ SameDevice s t ∧
    SamePass s t ∧ t.oq = s.oq ∧ t.cph = s.cph ∧ t.kph = s.kph ∧
    (i ≠ .dly → t.dc = s.dc) ∧ (i = .nop ∨ i = .dly → t.is = s.is)

/-- R103, R105, R106: the acceptance ticks of CAP, CYCLE and RUN: FL is 0 and the base pass waits for LATCH; CYCLE and RUN have
set IS. -/
def Obligations.CapturesBegin : Prop :=
  ∀ s : State, s.Idle →
    exec .cap s = .next { s with
      cur := 0xB000, busy := true, fl := false, kph := .pass1, bi := 0, ews := .pre, act := .latch } ∧
    exec .cycle s = .next { s with
      cur := 0xD000, busy := true, is := true, cph := .b,
      fl := false, kph := .pass1, bi := 0, ews := .pre, act := .latch } ∧
    exec .run s = .next { s with
      cur := 0xE000, busy := true, is := true, cph := .b,
      fl := false, kph := .pass1, bi := 0, ews := .pre, act := .latch }

/-- R73, R78, R81, R83, R87, R103: every tick of CAP after its acceptance tick, in both passes and both strategies. The DATA
observation of bit BI < 15 stores its negation at entry BI in the base pass and 16 + BI in the extension pass, and turns to a
spin in the legacy strategy and to the next CLOCK wait in the standard one; spins count down; the LATCH and CLOCK waits are one
observation a tick (the extension pass has a LATCH wait only with RELATCH_ON_EXT). At the last DATA observation of the base
pass, with entry 13 written, m is the negated answer: for m = 0, t = 1 the command ends with EXT = 0; else EXT is 1, FL still 0,
and the extension pass begins as RELATCH_ON_EXT and the strategy say. The last DATA observation of that pass stores entry 31,
sets FL and ends the command. -/
def Obligations.CapSamplesClassifiesAndCompletes : Prop :=
  (∀ s : State, s.Busy → s.kph = .pass1 ∨ s.kph = .pass2 → 1 ≤ s.params.spinTicks →
    let first := if s.kph = .pass1 then 0 else 16
    let spin := if s.longWait then 2 * s.params.spinTicks else s.params.spinTicks
    (s.act = .data → s.bi < 15 → exec .cap s = .next
      { (s.afterObs .data).bufWrite (first + s.bi) (!s.observed .data) with
        bi := s.bi + 1, act := if s.strat then .spin else .clock, sc := if s.strat then spin else s.sc }) ∧
    (s.act = .spin → exec .cap s = .next
      { s with sc := s.sc - 1, act := if s.sc ≤ 1 then .data else .spin }) ∧
    (s.act = .clock → exec .cap s = .next
      (if s.ews = .pre then { s.afterObs .clock with ews := if s.observed .clock then .post else .pre }
       else if s.observed .clock then s.afterObs .clock
       else { s.afterObs .clock with ews := .pre, act := .data })) ∧
    (s.act = .latch → s.kph = .pass1 ∨ s.params.relatchOnExt = true → exec .cap s = .next
      (if s.ews = .pre then { s.afterObs .latch with ews := if s.observed .latch then .post else .pre }
       else if s.observed .latch then s.afterObs .latch
       else { s.afterObs .latch with ews := .pre, act := if s.strat then .data else .clock }))) ∧
  (∀ s : State, s.Busy → s.act = .data → s.bi = 15 →
      (s.kph = .pass1 → s.written 13 = true → 1 ≤ s.params.spinTicks →
        let t := { (s.afterObs .data).bufWrite 15 (!s.observed .data) with bi := 16 }
        (s.observed .data = true → s.bufRead 13 = true →
          exec .cap s = .next { t with kph := .classify, ext := false, busy := false, act := .accept }) ∧
        (s.observed .data = false ∨ s.bufRead 13 = false →
          exec .cap s = .next { t with
            kph := .pass2, ext := true, bi := 0, ews := .pre,
            sc := if s.strat && !s.params.relatchOnExt
                  then (if s.longWait then 2 * s.params.spinTicks else s.params.spinTicks) else s.sc,
            act := if s.params.relatchOnExt then .latch else if s.strat then .spin else .clock })) ∧
      (s.kph = .pass2 →
        exec .cap s = .next { (s.afterObs .data).bufWrite 31 (!s.observed .data) with
          bi := 16, fl := true, busy := false, act := .accept }))

/-- R102 to R106, R144: CYCLE does the ticks of CAP in step (b), of EMF in (d) and of DLY in (e), as long as those go on. The tick
that ends a capture clears IS and queues the frame; the tick that sends its last byte loads the delay. The tick in which step
(e) ends completes CYCLE; in RUN the next cycle begins in that tick. With INTERCYCLE_TICKS = 0 that is the tick of the frame's
last byte. Every other tick of RUN is the tick of CYCLE. -/
def Obligations.CyclesRunTheirStepsAndRepeat : Prop :=
  (∀ s t : State, s.Busy → s.act ≠ .accept →
    (s.cph = .b ∧ exec .cap s = .next t ∨ s.cph = .d ∧ exec .emf s = .next t ∨ s.cph = .e ∧ exec .dly s = .next t) →
    t.busy = true → exec .cycle s = .next t) ∧
  (∀ s t : State, s.Busy → s.act ≠ .accept → t.busy = false →
    (s.cph = .b → exec .cap s = .next t → t.flt = false →
      (∀ j, j < (if t.fl then 32 else 16) → t.written j = true) →
      exec .cycle s = .next { t with
        busy := true, is := false, cph := .d, act := .send,
        oq := if t.framer then t.debugBytes 0 (if t.fl then 32 else 16)
              else t.compactBytes 0 (if t.fl then 32 else 16) }) ∧
    (s.cph = .d → exec .emf s = .next t → 0 < s.params.interCycleTicks →
      exec .cycle s = .next { t with
        busy := true, cph := .e, act := .delay, dc := s.params.interCycleTicks })) ∧
  (∀ s : State, s.Busy → ¬ (s.cph = .e ∧ s.act = .delay ∧ s.dc ≤ 1) →
    ¬ (s.cph = .d ∧ s.act = .send ∧ s.oq.length = 1 ∧ s.params.interCycleTicks = 0) →
    exec .run s = exec .cycle s) ∧
  (∀ s : State, s.Busy →
      (s.cph = .e → s.act = .delay → s.dc = 1 →
        exec .cycle s = .next { s with dc := 0, busy := false, act := .accept } ∧
        exec .run s = .next { s with
          dc := 0, is := true, cph := .b, fl := false, kph := .pass1, bi := 0, ews := .pre, act := .latch }) ∧
      (∀ b, s.cph = .d → s.act = .send → s.oq = [b] → s.params.interCycleTicks = 0 →
        exec .cycle s = .next { s with
          oq := [], out := s.out ++ [b], tx := some b, cph := .e, dc := 0, busy := false, act := .accept } ∧
        exec .run s = .next { s with
          oq := [], out := s.out ++ [b], tx := some b, dc := 0, is := true, cph := .b,
          fl := false, kph := .pass1, bi := 0, ews := .pre, act := .latch }))

/-- R106: RUN never completes: every tick of it that does not fault leaves the block busy. -/
def Obligations.RunNeverCompletes : Prop :=
  ∀ s t : State, exec .run s = .next t → t.flt = false → t.busy = true

/-- R29, R103, R105, R106, R118: the frame of CAP, CYCLE and RUN: the configuration is kept, at most entry BI of the current
pass changes, at most one byte is sent a tick, CAP sends none and keeps IS but for a fault. -/
def Obligations.CapturesAndCyclesChangeNothingElse : Prop :=
  ∀ (s t : State) (i : Instr), i ∈ [Instr.cap, .cycle, .run] → exec i s = .next t →
    SameSetting s t ∧ SentAtMostOne s t ∧
    (∀ j, j < 32 → (s.act = .data → s.busy = true → j ≠ (if s.kph = .pass1 then s.bi else 16 + s.bi)) →
      t.bufRead j = s.bufRead j ∧ t.written j = s.written j) ∧
    (i = .cap → SameOutput s t ∧ t.oq = s.oq ∧ t.dc = s.dc ∧ t.cph = s.cph) ∧
    (t.flt = false → SameFault s t ∧ (i = .cap → t.is = s.is))

/-- R103 to R105, R107, R109, R144, L1.5: a whole CYCLE in either strategy, either encoding and either value of RELATCH_ON_EXT, on
any device that gives every edge it waits for. With d the raw DATA levels in order, the frame is extended exactly for d[15] low
or d[13] high; the entries hold the negated levels; OUT gains the frame of those entries: compact, one byte a sampled bit, the
marker for a low level, and 0x0A, or the debug frame; FL and EXT hold the classification; IS is released; no line has given an
answer more, so the legacy strategy observes no CLOCK and only RELATCH_ON_EXT observes a second LATCH edge; and the cycle takes
the ticks R144 counts: it is busy up to the last of them. -/
def Obligations.CycleSendsTheCapturedFrame : Prop :=
  ∀ (s : State) (wl wx : Nat × Nat) (ws : List (Nat × Nat)) (d lr cr dr : List Bool),
    s.Idle → 1 ≤ s.params.spinTicks → s.hostq = [cmdWriteEntry 0xD000] →
    let extended := !d.getD 15 true || d.getD 13 true
    let relatched := extended && s.params.relatchOnExt
    let spin := if s.longWait then 2 * s.params.spinTicks else s.params.spinTicks
    let spins := if extended then (if relatched then 30 else 31) else 15
    let sampling := if s.strat then d.length + spins * spin else clockedTicks ws
    let frameLength :=
      if s.framer then d.length + (if s.params.dbgTrailingSep then d.length / 8 else (d.length - 1) / 8) + 2
      else d.length + 1
    d.length = (if extended then 32 else 16) → ws.length = (if s.strat then 0 else d.length) →
    s.latchAns = edgeAnswers wl ++ (if relatched then edgeAnswers wx else []) ++ lr →
    s.clockAns = ws.flatMap edgeAnswers ++ cr → s.dataAns = d ++ dr →
    let ticks :=
      1 + edgeTicks wl + (if relatched then edgeTicks wx else 0) + sampling + frameLength + s.params.interCycleTicks
    (∃ t, s.Reaches ticks t ∧ t.Idle ∧
      Sampled s t 0 d ∧ t.fl = extended ∧ t.ext = extended ∧ t.is = false ∧
      t.out = s.out ++ (if s.framer then t.debugBytes 0 d.length
        else d.map (fun v => if v then 0x00 else s.params.oneMarker) ++ [0x0A]) ∧
      t.latchAns = lr ∧ t.clockAns = cr ∧ t.dataAns = dr) ∧
    ∀ k, 0 < k → k < ticks → ∃ t, s.Reaches k t ∧ t.Busy

/-- R107, R103, R105, R106: in a state of the invariant a tick of CAP, CYCLE or RUN that the host leaves alone raises no fault. -/
def Obligations.CapturesAndCyclesNeverFault : Prop :=
  ∀ s : State, s.Inv → s.Busy → s.HostQuiet → s.cur ∈ [0xB000#16, 0xD000#16, 0xE000#16] →
    ∃ t, step s = .next t ∧ t.flt = false

/-- R108: in CYCLE and RUN, in a state of the invariant and with a host that does nothing, IS is 1 in every tick that observes a
line or spins, and 0 in every tick that sends a byte or counts the delay; and the tick ends with IS as the next one needs it. -/
def Obligations.InterruptsSuspendedExactlyWhileSampling : Prop :=
  ∀ s t : State, s.Inv → s.Busy → s.HostQuiet → s.cur ∈ [0xD000#16, 0xE000#16] → step s = .next t →
    (¬ SameDevice s t ∨ s.act = .spin → s.irqSuspend = true) ∧
    (t.tx ≠ none ∨ s.act = .delay → s.irqSuspend = false) ∧
    (t.busy = true →
      (t.act ∈ [Action.latch, .clock, .data, .spin] → t.irqSuspend = true) ∧
      (t.act ∈ [Action.send, .delay] → t.irqSuspend = false))

/-! ### The invariant -/

/-- The invariant holds after reset on every platform R7 admits, and on the model's own. -/
def Obligations.ResetMeetsTheInvariant : Prop :=
  (∀ p : Params, p.Admissible → (State.resetOn p).Inv) ∧ State.reset.Inv

/-- R12, R22, R23, R25, R27, R107, R118: every step of every state that meets the invariant, whatever the host and the device do,
ends in a state that meets it. -/
def Obligations.StepKeepsTheInvariant : Prop :=
  ∀ s t : State, s.Inv → step s = .next t → t.Inv

/-- R47, R55: from a state of the invariant the machine always takes its step: only an access that is no part of the interface
stops it, and never for want of a meaning. -/
def Obligations.StepStopsOnlyOnForeignAccesses : Prop :=
  ∀ s : State, s.Inv →
    (∃ t, step s = .next t) ∨
    (∃ size off, (s.hostNow.access = some (.read size off) ∨ ∃ v, s.hostNow.access = some (.write size off v)) ∧
      (size ≠ .word ∧ step s = .refused .subwordAccess ∨
        off.toNat % 4 ≠ 0 ∧ step s = .refused .misalignedAccess))
end

