-- ==== Sys2Proof/Laws/Decode.lean ====
section
/-! SUPPORT. The fields of a command word as numbers, and the range checks as sums. -/

namespace Sys2Proof

/-- The word of a command is its opcode times 4096 plus its operand bits (R61). -/
theorem encode_toNat (i : Instr) : (encode i).toNat = (opcodeOf i).toNat * 4096 + (operandBits i).toNat := by
  have h := (operandBits i).isLt
  simp only [encode, BitVec.toNat_append]
  rw [← Nat.shiftLeft_add_eq_or_of_lt h]
  simp [Nat.shiftLeft_eq]

/-- A field of a command word, by division. -/
theorem cwField_toNat (cw : CmdWord) (lo len : Nat) : cwField cw lo len = cw.toNat / 2 ^ lo % 2 ^ len := by
  simp [cwField, BitVec.extractLsb'_toNat, Nat.shiftRight_eq_div_pow]

/-- A bit of a command word, by division. -/
theorem cwBit_toNat (cw : CmdWord) (i : Nat) : cw.getLsbD i = decide (cw.toNat / 2 ^ i % 2 = 1) := by
  rw [BitVec.getLsbD, Nat.testBit_eq_decide_div_mod_eq]

/-- A field of a command word is a given bit vector when it is that number. -/
theorem cwExtract_eq {n : Nat} (cw : CmdWord) (lo : Nat) (x : BitVec n) (h : cw.toNat / 2 ^ lo % 2 ^ n = x.toNat) :
    cw.extractLsb' lo n = x := by
  apply BitVec.eq_of_toNat_eq
  simp [BitVec.extractLsb'_toNat, Nat.shiftRight_eq_div_pow, h]

/-- The operand bits of a sampling command (R64). -/
theorem samplingBits_toNat (l p : Bool) (idx nm1 : BitVec 5) :
    (BitVec.ofBool l ++ BitVec.ofBool p ++ idx ++ nm1 : BitVec 12).toNat =
      l.toNat * 2048 + p.toNat * 1024 + idx.toNat * 32 + nm1.toNat := by
  have h1 := idx.isLt
  have h2 := nm1.isLt
  simp only [BitVec.toNat_append]
  rw [← Nat.shiftLeft_add_eq_or_of_lt h2, ← Nat.shiftLeft_add_eq_or_of_lt h1,
    ← Nat.shiftLeft_add_eq_or_of_lt (by cases p <;> simp)]
  simp [Nat.shiftLeft_eq]; omega

/-- The operand bits of a framing command (R65). -/
theorem framingBits_toNat (start : BitVec 5) (count : BitVec 6) :
    (0#1 ++ count ++ start : BitVec 12).toNat = count.toNat * 32 + start.toNat := by
  have h1 := count.isLt
  have h2 := start.isLt
  simp only [BitVec.toNat_append]
  rw [← Nat.shiftLeft_add_eq_or_of_lt h2, ← Nat.shiftLeft_add_eq_or_of_lt h1]
  simp [Nat.shiftLeft_eq]

/-- The range check of a sampling command, as a sum (R60). -/
theorem passInRange_iff {idx nm1 : BitVec 5} :
    passInRange idx nm1 = true ↔ idx.toNat + (nm1.toNat + 1) ≤ 32 := by
  unfold passInRange passBits Config.bufCap
  rw [decide_eq_true_iff]

/-- The range check of a framing command, as sums (R60). -/
theorem frameInRange_iff {start : BitVec 5} {count : BitVec 6} :
    frameInRange start count = true ↔ count.toNat ≤ 32 ∧ start.toNat + count.toNat ≤ 32 := by
  unfold frameInRange Config.bufCap
  rw [Bool.and_eq_true, decide_eq_true_iff, decide_eq_true_iff]

/-- The code of a line is the code it is read from (R63). -/
theorem lineCode_of_lineOfCode {k : Nat} {l : Line} (h : lineOfCode k = some l) : (lineCode l).toNat = k := by
  unfold lineOfCode at h
  split at h <;> cases h <;> rfl

end Sys2Proof
end

