-- ==== Sys2Proof/Laws/State.lean ====
section
/-! SUPPORT. One lemma per field per update of the shared operations. -/

namespace Sys2Proof.Machine

/-! ### `BufWrite` (R17) -/

@[simp] theorem bufWrite_params (s : State) (i : Nat) (v : Bool) : (s.bufWrite i v).params = s.params := rfl
@[simp] theorem bufWrite_buf (s : State) (i : Nat) (v : Bool) : (s.bufWrite i v).buf = setBit s.buf i v := rfl
@[simp] theorem bufWrite_wr (s : State) (i : Nat) (v : Bool) : (s.bufWrite i v).wr = setBit s.wr i true := rfl
@[simp] theorem bufWrite_fl (s : State) (i : Nat) (v : Bool) : (s.bufWrite i v).fl = s.fl := rfl
@[simp] theorem bufWrite_ext (s : State) (i : Nat) (v : Bool) : (s.bufWrite i v).ext = s.ext := rfl
@[simp] theorem bufWrite_is (s : State) (i : Nat) (v : Bool) : (s.bufWrite i v).is = s.is := rfl
@[simp] theorem bufWrite_busy (s : State) (i : Nat) (v : Bool) : (s.bufWrite i v).busy = s.busy := rfl
@[simp] theorem bufWrite_flt (s : State) (i : Nat) (v : Bool) : (s.bufWrite i v).flt = s.flt := rfl
@[simp] theorem bufWrite_fcode (s : State) (i : Nat) (v : Bool) : (s.bufWrite i v).fcode = s.fcode := rfl
@[simp] theorem bufWrite_finfo (s : State) (i : Nat) (v : Bool) : (s.bufWrite i v).finfo = s.finfo := rfl
@[simp] theorem bufWrite_strat (s : State) (i : Nat) (v : Bool) : (s.bufWrite i v).strat = s.strat := rfl
@[simp] theorem bufWrite_framer (s : State) (i : Nat) (v : Bool) : (s.bufWrite i v).framer = s.framer := rfl
@[simp] theorem bufWrite_longWait (s : State) (i : Nat) (v : Bool) : (s.bufWrite i v).longWait = s.longWait := rfl
@[simp] theorem bufWrite_cur (s : State) (i : Nat) (v : Bool) : (s.bufWrite i v).cur = s.cur := rfl
@[simp] theorem bufWrite_ews (s : State) (i : Nat) (v : Bool) : (s.bufWrite i v).ews = s.ews := rfl
@[simp] theorem bufWrite_bi (s : State) (i : Nat) (v : Bool) : (s.bufWrite i v).bi = s.bi := rfl
@[simp] theorem bufWrite_sc (s : State) (i : Nat) (v : Bool) : (s.bufWrite i v).sc = s.sc := rfl
@[simp] theorem bufWrite_dc (s : State) (i : Nat) (v : Bool) : (s.bufWrite i v).dc = s.dc := rfl
@[simp] theorem bufWrite_oq (s : State) (i : Nat) (v : Bool) : (s.bufWrite i v).oq = s.oq := rfl
@[simp] theorem bufWrite_cph (s : State) (i : Nat) (v : Bool) : (s.bufWrite i v).cph = s.cph := rfl
@[simp] theorem bufWrite_kph (s : State) (i : Nat) (v : Bool) : (s.bufWrite i v).kph = s.kph := rfl
@[simp] theorem bufWrite_act (s : State) (i : Nat) (v : Bool) : (s.bufWrite i v).act = s.act := rfl
@[simp] theorem bufWrite_out (s : State) (i : Nat) (v : Bool) : (s.bufWrite i v).out = s.out := rfl
@[simp] theorem bufWrite_tx (s : State) (i : Nat) (v : Bool) : (s.bufWrite i v).tx = s.tx := rfl
@[simp] theorem bufWrite_rdata (s : State) (i : Nat) (v : Bool) : (s.bufWrite i v).rdata = s.rdata := rfl
@[simp] theorem bufWrite_latchAns (s : State) (i : Nat) (v : Bool) : (s.bufWrite i v).latchAns = s.latchAns := rfl
@[simp] theorem bufWrite_clockAns (s : State) (i : Nat) (v : Bool) : (s.bufWrite i v).clockAns = s.clockAns := rfl
@[simp] theorem bufWrite_dataAns (s : State) (i : Nat) (v : Bool) : (s.bufWrite i v).dataAns = s.dataAns := rfl
@[simp] theorem bufWrite_draws (s : State) (i : Nat) (v : Bool) : (s.bufWrite i v).draws = s.draws := rfl
@[simp] theorem bufWrite_bufReads (s : State) (i : Nat) (v : Bool) : (s.bufWrite i v).bufReads = s.bufReads := rfl
@[simp] theorem bufWrite_hostq (s : State) (i : Nat) (v : Bool) : (s.bufWrite i v).hostq = s.hostq := rfl

/-! ### `Tx` (R27) -/

@[simp] theorem transmit_params (s : State) (b : Byte) : (s.transmit b).params = s.params := rfl
@[simp] theorem transmit_buf (s : State) (b : Byte) : (s.transmit b).buf = s.buf := rfl
@[simp] theorem transmit_wr (s : State) (b : Byte) : (s.transmit b).wr = s.wr := rfl
@[simp] theorem transmit_fl (s : State) (b : Byte) : (s.transmit b).fl = s.fl := rfl
@[simp] theorem transmit_ext (s : State) (b : Byte) : (s.transmit b).ext = s.ext := rfl
@[simp] theorem transmit_is (s : State) (b : Byte) : (s.transmit b).is = s.is := rfl
@[simp] theorem transmit_busy (s : State) (b : Byte) : (s.transmit b).busy = s.busy := rfl
@[simp] theorem transmit_flt (s : State) (b : Byte) : (s.transmit b).flt = s.flt := rfl
@[simp] theorem transmit_fcode (s : State) (b : Byte) : (s.transmit b).fcode = s.fcode := rfl
@[simp] theorem transmit_finfo (s : State) (b : Byte) : (s.transmit b).finfo = s.finfo := rfl
@[simp] theorem transmit_strat (s : State) (b : Byte) : (s.transmit b).strat = s.strat := rfl
@[simp] theorem transmit_framer (s : State) (b : Byte) : (s.transmit b).framer = s.framer := rfl
@[simp] theorem transmit_longWait (s : State) (b : Byte) : (s.transmit b).longWait = s.longWait := rfl
@[simp] theorem transmit_cur (s : State) (b : Byte) : (s.transmit b).cur = s.cur := rfl
@[simp] theorem transmit_ews (s : State) (b : Byte) : (s.transmit b).ews = s.ews := rfl
@[simp] theorem transmit_bi (s : State) (b : Byte) : (s.transmit b).bi = s.bi := rfl
@[simp] theorem transmit_sc (s : State) (b : Byte) : (s.transmit b).sc = s.sc := rfl
@[simp] theorem transmit_dc (s : State) (b : Byte) : (s.transmit b).dc = s.dc := rfl
@[simp] theorem transmit_oq (s : State) (b : Byte) : (s.transmit b).oq = s.oq := rfl
@[simp] theorem transmit_cph (s : State) (b : Byte) : (s.transmit b).cph = s.cph := rfl
@[simp] theorem transmit_kph (s : State) (b : Byte) : (s.transmit b).kph = s.kph := rfl
@[simp] theorem transmit_act (s : State) (b : Byte) : (s.transmit b).act = s.act := rfl
@[simp] theorem transmit_out (s : State) (b : Byte) : (s.transmit b).out = s.out ++ [b] := rfl
@[simp] theorem transmit_tx (s : State) (b : Byte) : (s.transmit b).tx = some b := rfl
@[simp] theorem transmit_rdata (s : State) (b : Byte) : (s.transmit b).rdata = s.rdata := rfl
@[simp] theorem transmit_latchAns (s : State) (b : Byte) : (s.transmit b).latchAns = s.latchAns := rfl
@[simp] theorem transmit_clockAns (s : State) (b : Byte) : (s.transmit b).clockAns = s.clockAns := rfl
@[simp] theorem transmit_dataAns (s : State) (b : Byte) : (s.transmit b).dataAns = s.dataAns := rfl
@[simp] theorem transmit_draws (s : State) (b : Byte) : (s.transmit b).draws = s.draws := rfl
@[simp] theorem transmit_bufReads (s : State) (b : Byte) : (s.transmit b).bufReads = s.bufReads := rfl
@[simp] theorem transmit_hostq (s : State) (b : Byte) : (s.transmit b).hostq = s.hostq := rfl

/-! ### Fault entry (R118) -/

@[simp] theorem raiseFault_params (c : FaultCode) (w : BusWord) (s : State) : (raiseFault c w s).params = s.params := rfl
@[simp] theorem raiseFault_buf (c : FaultCode) (w : BusWord) (s : State) : (raiseFault c w s).buf = s.buf := rfl
@[simp] theorem raiseFault_wr (c : FaultCode) (w : BusWord) (s : State) : (raiseFault c w s).wr = s.wr := rfl
@[simp] theorem raiseFault_fl (c : FaultCode) (w : BusWord) (s : State) : (raiseFault c w s).fl = s.fl := rfl
@[simp] theorem raiseFault_ext (c : FaultCode) (w : BusWord) (s : State) : (raiseFault c w s).ext = s.ext := rfl
@[simp] theorem raiseFault_is (c : FaultCode) (w : BusWord) (s : State) : (raiseFault c w s).is = false := rfl
@[simp] theorem raiseFault_busy (c : FaultCode) (w : BusWord) (s : State) : (raiseFault c w s).busy = false := rfl
@[simp] theorem raiseFault_flt (c : FaultCode) (w : BusWord) (s : State) : (raiseFault c w s).flt = true := rfl
@[simp] theorem raiseFault_fcode (c : FaultCode) (w : BusWord) (s : State) : (raiseFault c w s).fcode = c := rfl
@[simp] theorem raiseFault_finfo (c : FaultCode) (w : BusWord) (s : State) : (raiseFault c w s).finfo = w := rfl
@[simp] theorem raiseFault_strat (c : FaultCode) (w : BusWord) (s : State) : (raiseFault c w s).strat = s.strat := rfl
@[simp] theorem raiseFault_framer (c : FaultCode) (w : BusWord) (s : State) : (raiseFault c w s).framer = s.framer := rfl
@[simp] theorem raiseFault_longWait (c : FaultCode) (w : BusWord) (s : State) : (raiseFault c w s).longWait = s.longWait := rfl
@[simp] theorem raiseFault_cur (c : FaultCode) (w : BusWord) (s : State) : (raiseFault c w s).cur = s.cur := rfl
@[simp] theorem raiseFault_ews (c : FaultCode) (w : BusWord) (s : State) : (raiseFault c w s).ews = s.ews := rfl
@[simp] theorem raiseFault_bi (c : FaultCode) (w : BusWord) (s : State) : (raiseFault c w s).bi = s.bi := rfl
@[simp] theorem raiseFault_sc (c : FaultCode) (w : BusWord) (s : State) : (raiseFault c w s).sc = s.sc := rfl
@[simp] theorem raiseFault_dc (c : FaultCode) (w : BusWord) (s : State) : (raiseFault c w s).dc = s.dc := rfl
@[simp] theorem raiseFault_oq (c : FaultCode) (w : BusWord) (s : State) : (raiseFault c w s).oq = s.oq := rfl
@[simp] theorem raiseFault_cph (c : FaultCode) (w : BusWord) (s : State) : (raiseFault c w s).cph = s.cph := rfl
@[simp] theorem raiseFault_kph (c : FaultCode) (w : BusWord) (s : State) : (raiseFault c w s).kph = s.kph := rfl
@[simp] theorem raiseFault_act (c : FaultCode) (w : BusWord) (s : State) : (raiseFault c w s).act = .accept := rfl
@[simp] theorem raiseFault_out (c : FaultCode) (w : BusWord) (s : State) : (raiseFault c w s).out = s.out := rfl
@[simp] theorem raiseFault_tx (c : FaultCode) (w : BusWord) (s : State) : (raiseFault c w s).tx = s.tx := rfl
@[simp] theorem raiseFault_rdata (c : FaultCode) (w : BusWord) (s : State) : (raiseFault c w s).rdata = s.rdata := rfl
@[simp] theorem raiseFault_latchAns (c : FaultCode) (w : BusWord) (s : State) : (raiseFault c w s).latchAns = s.latchAns := rfl
@[simp] theorem raiseFault_clockAns (c : FaultCode) (w : BusWord) (s : State) : (raiseFault c w s).clockAns = s.clockAns := rfl
@[simp] theorem raiseFault_dataAns (c : FaultCode) (w : BusWord) (s : State) : (raiseFault c w s).dataAns = s.dataAns := rfl
@[simp] theorem raiseFault_draws (c : FaultCode) (w : BusWord) (s : State) : (raiseFault c w s).draws = s.draws := rfl
@[simp] theorem raiseFault_bufReads (c : FaultCode) (w : BusWord) (s : State) : (raiseFault c w s).bufReads = s.bufReads := rfl
@[simp] theorem raiseFault_hostq (c : FaultCode) (w : BusWord) (s : State) : (raiseFault c w s).hostq = s.hostq := rfl

/-! ### Acceptance (R58) -/

@[simp] theorem accept_params (i : Instr) (s : State) : (accept i s).params = s.params := rfl
@[simp] theorem accept_buf (i : Instr) (s : State) : (accept i s).buf = s.buf := rfl
@[simp] theorem accept_wr (i : Instr) (s : State) : (accept i s).wr = s.wr := rfl
@[simp] theorem accept_fl (i : Instr) (s : State) : (accept i s).fl = s.fl := rfl
@[simp] theorem accept_ext (i : Instr) (s : State) : (accept i s).ext = s.ext := rfl
@[simp] theorem accept_is (i : Instr) (s : State) : (accept i s).is = s.is := rfl
@[simp] theorem accept_busy (i : Instr) (s : State) : (accept i s).busy = true := rfl
@[simp] theorem accept_flt (i : Instr) (s : State) : (accept i s).flt = s.flt := rfl
@[simp] theorem accept_fcode (i : Instr) (s : State) : (accept i s).fcode = s.fcode := rfl
@[simp] theorem accept_finfo (i : Instr) (s : State) : (accept i s).finfo = s.finfo := rfl
@[simp] theorem accept_strat (i : Instr) (s : State) : (accept i s).strat = s.strat := rfl
@[simp] theorem accept_framer (i : Instr) (s : State) : (accept i s).framer = s.framer := rfl
@[simp] theorem accept_longWait (i : Instr) (s : State) : (accept i s).longWait = s.longWait := rfl
@[simp] theorem accept_cur (i : Instr) (s : State) : (accept i s).cur = encode i := rfl
@[simp] theorem accept_ews (i : Instr) (s : State) : (accept i s).ews = s.ews := rfl
@[simp] theorem accept_bi (i : Instr) (s : State) : (accept i s).bi = s.bi := rfl
@[simp] theorem accept_sc (i : Instr) (s : State) : (accept i s).sc = s.sc := rfl
@[simp] theorem accept_dc (i : Instr) (s : State) : (accept i s).dc = s.dc := rfl
@[simp] theorem accept_oq (i : Instr) (s : State) : (accept i s).oq = s.oq := rfl
@[simp] theorem accept_cph (i : Instr) (s : State) : (accept i s).cph = s.cph := rfl
@[simp] theorem accept_kph (i : Instr) (s : State) : (accept i s).kph = s.kph := rfl
@[simp] theorem accept_act (i : Instr) (s : State) : (accept i s).act = .accept := rfl
@[simp] theorem accept_out (i : Instr) (s : State) : (accept i s).out = s.out := rfl
@[simp] theorem accept_tx (i : Instr) (s : State) : (accept i s).tx = s.tx := rfl
@[simp] theorem accept_rdata (i : Instr) (s : State) : (accept i s).rdata = s.rdata := rfl
@[simp] theorem accept_latchAns (i : Instr) (s : State) : (accept i s).latchAns = s.latchAns := rfl
@[simp] theorem accept_clockAns (i : Instr) (s : State) : (accept i s).clockAns = s.clockAns := rfl
@[simp] theorem accept_dataAns (i : Instr) (s : State) : (accept i s).dataAns = s.dataAns := rfl
@[simp] theorem accept_draws (i : Instr) (s : State) : (accept i s).draws = s.draws := rfl
@[simp] theorem accept_bufReads (i : Instr) (s : State) : (accept i s).bufReads = s.bufReads := rfl
@[simp] theorem accept_hostq (i : Instr) (s : State) : (accept i s).hostq = s.hostq := rfl

/-! ### Completion (R22) -/

@[simp] theorem complete_params (s : State) : (complete s).params = s.params := rfl
@[simp] theorem complete_buf (s : State) : (complete s).buf = s.buf := rfl
@[simp] theorem complete_wr (s : State) : (complete s).wr = s.wr := rfl
@[simp] theorem complete_fl (s : State) : (complete s).fl = s.fl := rfl
@[simp] theorem complete_ext (s : State) : (complete s).ext = s.ext := rfl
@[simp] theorem complete_is (s : State) : (complete s).is = s.is := rfl
@[simp] theorem complete_busy (s : State) : (complete s).busy = false := rfl
@[simp] theorem complete_flt (s : State) : (complete s).flt = s.flt := rfl
@[simp] theorem complete_fcode (s : State) : (complete s).fcode = s.fcode := rfl
@[simp] theorem complete_finfo (s : State) : (complete s).finfo = s.finfo := rfl
@[simp] theorem complete_strat (s : State) : (complete s).strat = s.strat := rfl
@[simp] theorem complete_framer (s : State) : (complete s).framer = s.framer := rfl
@[simp] theorem complete_longWait (s : State) : (complete s).longWait = s.longWait := rfl
@[simp] theorem complete_cur (s : State) : (complete s).cur = s.cur := rfl
@[simp] theorem complete_ews (s : State) : (complete s).ews = s.ews := rfl
@[simp] theorem complete_bi (s : State) : (complete s).bi = s.bi := rfl
@[simp] theorem complete_sc (s : State) : (complete s).sc = s.sc := rfl
@[simp] theorem complete_dc (s : State) : (complete s).dc = s.dc := rfl
@[simp] theorem complete_oq (s : State) : (complete s).oq = s.oq := rfl
@[simp] theorem complete_cph (s : State) : (complete s).cph = s.cph := rfl
@[simp] theorem complete_kph (s : State) : (complete s).kph = s.kph := rfl
@[simp] theorem complete_act (s : State) : (complete s).act = .accept := rfl
@[simp] theorem complete_out (s : State) : (complete s).out = s.out := rfl
@[simp] theorem complete_tx (s : State) : (complete s).tx = s.tx := rfl
@[simp] theorem complete_rdata (s : State) : (complete s).rdata = s.rdata := rfl
@[simp] theorem complete_latchAns (s : State) : (complete s).latchAns = s.latchAns := rfl
@[simp] theorem complete_clockAns (s : State) : (complete s).clockAns = s.clockAns := rfl
@[simp] theorem complete_dataAns (s : State) : (complete s).dataAns = s.dataAns := rfl
@[simp] theorem complete_draws (s : State) : (complete s).draws = s.draws := rfl
@[simp] theorem complete_bufReads (s : State) : (complete s).bufReads = s.bufReads := rfl
@[simp] theorem complete_hostq (s : State) : (complete s).hostq = s.hostq := rfl

/-! ### An emission stands ready (R92, R95) -/

@[simp] theorem queueBytes_params (f : State → List Byte) (s : State) : (queueBytes f s).params = s.params := rfl
@[simp] theorem queueBytes_buf (f : State → List Byte) (s : State) : (queueBytes f s).buf = s.buf := rfl
@[simp] theorem queueBytes_wr (f : State → List Byte) (s : State) : (queueBytes f s).wr = s.wr := rfl
@[simp] theorem queueBytes_fl (f : State → List Byte) (s : State) : (queueBytes f s).fl = s.fl := rfl
@[simp] theorem queueBytes_ext (f : State → List Byte) (s : State) : (queueBytes f s).ext = s.ext := rfl
@[simp] theorem queueBytes_is (f : State → List Byte) (s : State) : (queueBytes f s).is = s.is := rfl
@[simp] theorem queueBytes_busy (f : State → List Byte) (s : State) : (queueBytes f s).busy = s.busy := rfl
@[simp] theorem queueBytes_flt (f : State → List Byte) (s : State) : (queueBytes f s).flt = s.flt := rfl
@[simp] theorem queueBytes_fcode (f : State → List Byte) (s : State) : (queueBytes f s).fcode = s.fcode := rfl
@[simp] theorem queueBytes_finfo (f : State → List Byte) (s : State) : (queueBytes f s).finfo = s.finfo := rfl
@[simp] theorem queueBytes_strat (f : State → List Byte) (s : State) : (queueBytes f s).strat = s.strat := rfl
@[simp] theorem queueBytes_framer (f : State → List Byte) (s : State) : (queueBytes f s).framer = s.framer := rfl
@[simp] theorem queueBytes_longWait (f : State → List Byte) (s : State) : (queueBytes f s).longWait = s.longWait := rfl
@[simp] theorem queueBytes_cur (f : State → List Byte) (s : State) : (queueBytes f s).cur = s.cur := rfl
@[simp] theorem queueBytes_ews (f : State → List Byte) (s : State) : (queueBytes f s).ews = s.ews := rfl
@[simp] theorem queueBytes_bi (f : State → List Byte) (s : State) : (queueBytes f s).bi = s.bi := rfl
@[simp] theorem queueBytes_sc (f : State → List Byte) (s : State) : (queueBytes f s).sc = s.sc := rfl
@[simp] theorem queueBytes_dc (f : State → List Byte) (s : State) : (queueBytes f s).dc = s.dc := rfl
@[simp] theorem queueBytes_oq (f : State → List Byte) (s : State) : (queueBytes f s).oq = f s := rfl
@[simp] theorem queueBytes_cph (f : State → List Byte) (s : State) : (queueBytes f s).cph = s.cph := rfl
@[simp] theorem queueBytes_kph (f : State → List Byte) (s : State) : (queueBytes f s).kph = s.kph := rfl
@[simp] theorem queueBytes_act (f : State → List Byte) (s : State) : (queueBytes f s).act = .send := rfl
@[simp] theorem queueBytes_out (f : State → List Byte) (s : State) : (queueBytes f s).out = s.out := rfl
@[simp] theorem queueBytes_tx (f : State → List Byte) (s : State) : (queueBytes f s).tx = s.tx := rfl
@[simp] theorem queueBytes_rdata (f : State → List Byte) (s : State) : (queueBytes f s).rdata = s.rdata := rfl
@[simp] theorem queueBytes_latchAns (f : State → List Byte) (s : State) : (queueBytes f s).latchAns = s.latchAns := rfl
@[simp] theorem queueBytes_clockAns (f : State → List Byte) (s : State) : (queueBytes f s).clockAns = s.clockAns := rfl
@[simp] theorem queueBytes_dataAns (f : State → List Byte) (s : State) : (queueBytes f s).dataAns = s.dataAns := rfl
@[simp] theorem queueBytes_draws (f : State → List Byte) (s : State) : (queueBytes f s).draws = s.draws := rfl
@[simp] theorem queueBytes_bufReads (f : State → List Byte) (s : State) : (queueBytes f s).bufReads = s.bufReads := rfl
@[simp] theorem queueBytes_hostq (f : State → List Byte) (s : State) : (queueBytes f s).hostq = s.hostq := rfl

/-! ### A tick opens -/

@[simp] theorem openTick_params (s : State) : s.openTick.params = s.params := rfl
@[simp] theorem openTick_buf (s : State) : s.openTick.buf = s.buf := rfl
@[simp] theorem openTick_wr (s : State) : s.openTick.wr = s.wr := rfl
@[simp] theorem openTick_fl (s : State) : s.openTick.fl = s.fl := rfl
@[simp] theorem openTick_ext (s : State) : s.openTick.ext = s.ext := rfl
@[simp] theorem openTick_is (s : State) : s.openTick.is = s.is := rfl
@[simp] theorem openTick_busy (s : State) : s.openTick.busy = s.busy := rfl
@[simp] theorem openTick_flt (s : State) : s.openTick.flt = s.flt := rfl
@[simp] theorem openTick_fcode (s : State) : s.openTick.fcode = s.fcode := rfl
@[simp] theorem openTick_finfo (s : State) : s.openTick.finfo = s.finfo := rfl
@[simp] theorem openTick_strat (s : State) : s.openTick.strat = s.strat := rfl
@[simp] theorem openTick_framer (s : State) : s.openTick.framer = s.framer := rfl
@[simp] theorem openTick_longWait (s : State) : s.openTick.longWait = s.longWait := rfl
@[simp] theorem openTick_cur (s : State) : s.openTick.cur = s.cur := rfl
@[simp] theorem openTick_ews (s : State) : s.openTick.ews = s.ews := rfl
@[simp] theorem openTick_bi (s : State) : s.openTick.bi = s.bi := rfl
@[simp] theorem openTick_sc (s : State) : s.openTick.sc = s.sc := rfl
@[simp] theorem openTick_dc (s : State) : s.openTick.dc = s.dc := rfl
@[simp] theorem openTick_oq (s : State) : s.openTick.oq = s.oq := rfl
@[simp] theorem openTick_cph (s : State) : s.openTick.cph = s.cph := rfl
@[simp] theorem openTick_kph (s : State) : s.openTick.kph = s.kph := rfl
@[simp] theorem openTick_act (s : State) : s.openTick.act = s.act := rfl
@[simp] theorem openTick_out (s : State) : s.openTick.out = s.out := rfl
@[simp] theorem openTick_tx (s : State) : s.openTick.tx = none := rfl
@[simp] theorem openTick_rdata (s : State) : s.openTick.rdata = none := rfl
@[simp] theorem openTick_latchAns (s : State) : s.openTick.latchAns = s.latchAns := rfl
@[simp] theorem openTick_clockAns (s : State) : s.openTick.clockAns = s.clockAns := rfl
@[simp] theorem openTick_dataAns (s : State) : s.openTick.dataAns = s.dataAns := rfl
@[simp] theorem openTick_draws (s : State) : s.openTick.draws = s.draws := rfl
@[simp] theorem openTick_bufReads (s : State) : s.openTick.bufReads = s.bufReads := rfl
@[simp] theorem openTick_hostq (s : State) : s.openTick.hostq = s.hostq.tail := rfl

/-! ### A host read (R48) -/

@[simp] theorem busRead_params (r : Reg) (s : State) : (busRead r s).params = s.params := rfl
@[simp] theorem busRead_buf (r : Reg) (s : State) : (busRead r s).buf = s.buf := rfl
@[simp] theorem busRead_wr (r : Reg) (s : State) : (busRead r s).wr = s.wr := rfl
@[simp] theorem busRead_fl (r : Reg) (s : State) : (busRead r s).fl = s.fl := rfl
@[simp] theorem busRead_ext (r : Reg) (s : State) : (busRead r s).ext = s.ext := rfl
@[simp] theorem busRead_is (r : Reg) (s : State) : (busRead r s).is = s.is := rfl
@[simp] theorem busRead_busy (r : Reg) (s : State) : (busRead r s).busy = s.busy := rfl
@[simp] theorem busRead_flt (r : Reg) (s : State) : (busRead r s).flt = s.flt := rfl
@[simp] theorem busRead_fcode (r : Reg) (s : State) : (busRead r s).fcode = s.fcode := rfl
@[simp] theorem busRead_finfo (r : Reg) (s : State) : (busRead r s).finfo = s.finfo := rfl
@[simp] theorem busRead_strat (r : Reg) (s : State) : (busRead r s).strat = s.strat := rfl
@[simp] theorem busRead_framer (r : Reg) (s : State) : (busRead r s).framer = s.framer := rfl
@[simp] theorem busRead_longWait (r : Reg) (s : State) : (busRead r s).longWait = s.longWait := rfl
@[simp] theorem busRead_cur (r : Reg) (s : State) : (busRead r s).cur = s.cur := rfl
@[simp] theorem busRead_ews (r : Reg) (s : State) : (busRead r s).ews = s.ews := rfl
@[simp] theorem busRead_bi (r : Reg) (s : State) : (busRead r s).bi = s.bi := rfl
@[simp] theorem busRead_sc (r : Reg) (s : State) : (busRead r s).sc = s.sc := rfl
@[simp] theorem busRead_dc (r : Reg) (s : State) : (busRead r s).dc = s.dc := rfl
@[simp] theorem busRead_oq (r : Reg) (s : State) : (busRead r s).oq = s.oq := rfl
@[simp] theorem busRead_cph (r : Reg) (s : State) : (busRead r s).cph = s.cph := rfl
@[simp] theorem busRead_kph (r : Reg) (s : State) : (busRead r s).kph = s.kph := rfl
@[simp] theorem busRead_act (r : Reg) (s : State) : (busRead r s).act = s.act := rfl
@[simp] theorem busRead_out (r : Reg) (s : State) : (busRead r s).out = s.out := rfl
@[simp] theorem busRead_tx (r : Reg) (s : State) : (busRead r s).tx = s.tx := rfl
@[simp] theorem busRead_rdata (r : Reg) (s : State) : (busRead r s).rdata = some (s.regValue r) := rfl
@[simp] theorem busRead_latchAns (r : Reg) (s : State) : (busRead r s).latchAns = s.latchAns := rfl
@[simp] theorem busRead_clockAns (r : Reg) (s : State) : (busRead r s).clockAns = s.clockAns := rfl
@[simp] theorem busRead_dataAns (r : Reg) (s : State) : (busRead r s).dataAns = s.dataAns := rfl
@[simp] theorem busRead_draws (r : Reg) (s : State) : (busRead r s).draws = s.draws := rfl
@[simp] theorem busRead_bufReads (r : Reg) (s : State) : (busRead r s).bufReads = if r = .buf then s.bufReads + 1 else s.bufReads := rfl
@[simp] theorem busRead_hostq (r : Reg) (s : State) : (busRead r s).hostq = s.hostq := rfl

/-! ### The block made idle -/

@[simp] theorem idled_params (s : State) : s.idled.params = s.params := rfl
@[simp] theorem idled_buf (s : State) : s.idled.buf = s.buf := rfl
@[simp] theorem idled_wr (s : State) : s.idled.wr = s.wr := rfl
@[simp] theorem idled_fl (s : State) : s.idled.fl = s.fl := rfl
@[simp] theorem idled_ext (s : State) : s.idled.ext = s.ext := rfl
@[simp] theorem idled_is (s : State) : s.idled.is = s.is := rfl
@[simp] theorem idled_busy (s : State) : s.idled.busy = false := rfl
@[simp] theorem idled_flt (s : State) : s.idled.flt = false := rfl
@[simp] theorem idled_fcode (s : State) : s.idled.fcode = .none := rfl
@[simp] theorem idled_finfo (s : State) : s.idled.finfo = 0 := rfl
@[simp] theorem idled_strat (s : State) : s.idled.strat = s.strat := rfl
@[simp] theorem idled_framer (s : State) : s.idled.framer = s.framer := rfl
@[simp] theorem idled_longWait (s : State) : s.idled.longWait = s.longWait := rfl
@[simp] theorem idled_cur (s : State) : s.idled.cur = s.cur := rfl
@[simp] theorem idled_ews (s : State) : s.idled.ews = s.ews := rfl
@[simp] theorem idled_bi (s : State) : s.idled.bi = s.bi := rfl
@[simp] theorem idled_sc (s : State) : s.idled.sc = s.sc := rfl
@[simp] theorem idled_dc (s : State) : s.idled.dc = s.dc := rfl
@[simp] theorem idled_oq (s : State) : s.idled.oq = s.oq := rfl
@[simp] theorem idled_cph (s : State) : s.idled.cph = s.cph := rfl
@[simp] theorem idled_kph (s : State) : s.idled.kph = s.kph := rfl
@[simp] theorem idled_act (s : State) : s.idled.act = .accept := rfl
@[simp] theorem idled_out (s : State) : s.idled.out = s.out := rfl
@[simp] theorem idled_tx (s : State) : s.idled.tx = s.tx := rfl
@[simp] theorem idled_rdata (s : State) : s.idled.rdata = s.rdata := rfl
@[simp] theorem idled_latchAns (s : State) : s.idled.latchAns = s.latchAns := rfl
@[simp] theorem idled_clockAns (s : State) : s.idled.clockAns = s.clockAns := rfl
@[simp] theorem idled_dataAns (s : State) : s.idled.dataAns = s.dataAns := rfl
@[simp] theorem idled_draws (s : State) : s.idled.draws = s.draws := rfl
@[simp] theorem idled_bufReads (s : State) : s.idled.bufReads = s.bufReads := rfl
@[simp] theorem idled_hostq (s : State) : s.idled.hostq = s.hostq := rfl

end Sys2Proof.Machine
end

