-- ==== Sys2Proof/Laws/Ops.lean ====
section
/-! SUPPORT. What each shared operation can do, said once. -/

namespace Sys2Proof.Machine

/-! ### Observations -/

/-- An observation touches the device's answers and the free-value counter alone (R48). -/
theorem afterObs_eq (s : State) (line : Line) :
    ∃ l c d n, s.afterObs line = { s with latchAns := l, clockAns := c, dataAns := d, draws := n } := by
  unfold State.afterObs State.withAnswers
  split
  · cases line <;> exact ⟨_, _, _, _, rfl⟩
  · exact ⟨_, _, _, _, rfl⟩

@[simp] theorem afterObs_params (s : State) (line : Line) : (s.afterObs line).params = s.params := by
  obtain ⟨_, _, _, _, h⟩ := afterObs_eq s line; rw [h]

@[simp] theorem afterObs_buf (s : State) (line : Line) : (s.afterObs line).buf = s.buf := by
  obtain ⟨_, _, _, _, h⟩ := afterObs_eq s line; rw [h]

@[simp] theorem afterObs_wr (s : State) (line : Line) : (s.afterObs line).wr = s.wr := by
  obtain ⟨_, _, _, _, h⟩ := afterObs_eq s line; rw [h]

@[simp] theorem afterObs_fl (s : State) (line : Line) : (s.afterObs line).fl = s.fl := by
  obtain ⟨_, _, _, _, h⟩ := afterObs_eq s line; rw [h]

@[simp] theorem afterObs_ext (s : State) (line : Line) : (s.afterObs line).ext = s.ext := by
  obtain ⟨_, _, _, _, h⟩ := afterObs_eq s line; rw [h]

@[simp] theorem afterObs_is (s : State) (line : Line) : (s.afterObs line).is = s.is := by
  obtain ⟨_, _, _, _, h⟩ := afterObs_eq s line; rw [h]

@[simp] theorem afterObs_busy (s : State) (line : Line) : (s.afterObs line).busy = s.busy := by
  obtain ⟨_, _, _, _, h⟩ := afterObs_eq s line; rw [h]

@[simp] theorem afterObs_flt (s : State) (line : Line) : (s.afterObs line).flt = s.flt := by
  obtain ⟨_, _, _, _, h⟩ := afterObs_eq s line; rw [h]

@[simp] theorem afterObs_fcode (s : State) (line : Line) : (s.afterObs line).fcode = s.fcode := by
  obtain ⟨_, _, _, _, h⟩ := afterObs_eq s line; rw [h]

@[simp] theorem afterObs_finfo (s : State) (line : Line) : (s.afterObs line).finfo = s.finfo := by
  obtain ⟨_, _, _, _, h⟩ := afterObs_eq s line; rw [h]

@[simp] theorem afterObs_strat (s : State) (line : Line) : (s.afterObs line).strat = s.strat := by
  obtain ⟨_, _, _, _, h⟩ := afterObs_eq s line; rw [h]

@[simp] theorem afterObs_framer (s : State) (line : Line) : (s.afterObs line).framer = s.framer := by
  obtain ⟨_, _, _, _, h⟩ := afterObs_eq s line; rw [h]

@[simp] theorem afterObs_longWait (s : State) (line : Line) : (s.afterObs line).longWait = s.longWait := by
  obtain ⟨_, _, _, _, h⟩ := afterObs_eq s line; rw [h]

@[simp] theorem afterObs_cur (s : State) (line : Line) : (s.afterObs line).cur = s.cur := by
  obtain ⟨_, _, _, _, h⟩ := afterObs_eq s line; rw [h]

@[simp] theorem afterObs_ews (s : State) (line : Line) : (s.afterObs line).ews = s.ews := by
  obtain ⟨_, _, _, _, h⟩ := afterObs_eq s line; rw [h]

@[simp] theorem afterObs_bi (s : State) (line : Line) : (s.afterObs line).bi = s.bi := by
  obtain ⟨_, _, _, _, h⟩ := afterObs_eq s line; rw [h]

@[simp] theorem afterObs_sc (s : State) (line : Line) : (s.afterObs line).sc = s.sc := by
  obtain ⟨_, _, _, _, h⟩ := afterObs_eq s line; rw [h]

@[simp] theorem afterObs_dc (s : State) (line : Line) : (s.afterObs line).dc = s.dc := by
  obtain ⟨_, _, _, _, h⟩ := afterObs_eq s line; rw [h]

@[simp] theorem afterObs_oq (s : State) (line : Line) : (s.afterObs line).oq = s.oq := by
  obtain ⟨_, _, _, _, h⟩ := afterObs_eq s line; rw [h]

@[simp] theorem afterObs_cph (s : State) (line : Line) : (s.afterObs line).cph = s.cph := by
  obtain ⟨_, _, _, _, h⟩ := afterObs_eq s line; rw [h]

@[simp] theorem afterObs_kph (s : State) (line : Line) : (s.afterObs line).kph = s.kph := by
  obtain ⟨_, _, _, _, h⟩ := afterObs_eq s line; rw [h]

@[simp] theorem afterObs_act (s : State) (line : Line) : (s.afterObs line).act = s.act := by
  obtain ⟨_, _, _, _, h⟩ := afterObs_eq s line; rw [h]

@[simp] theorem afterObs_out (s : State) (line : Line) : (s.afterObs line).out = s.out := by
  obtain ⟨_, _, _, _, h⟩ := afterObs_eq s line; rw [h]

@[simp] theorem afterObs_tx (s : State) (line : Line) : (s.afterObs line).tx = s.tx := by
  obtain ⟨_, _, _, _, h⟩ := afterObs_eq s line; rw [h]

@[simp] theorem afterObs_rdata (s : State) (line : Line) : (s.afterObs line).rdata = s.rdata := by
  obtain ⟨_, _, _, _, h⟩ := afterObs_eq s line; rw [h]

@[simp] theorem afterObs_bufReads (s : State) (line : Line) : (s.afterObs line).bufReads = s.bufReads := by
  obtain ⟨_, _, _, _, h⟩ := afterObs_eq s line; rw [h]

@[simp] theorem afterObs_hostq (s : State) (line : Line) : (s.afterObs line).hostq = s.hostq := by
  obtain ⟨_, _, _, _, h⟩ := afterObs_eq s line; rw [h]

/-- A scripted answer is the level observed. -/
theorem observed_of_answers {s : State} {line : Line} {v : Bool} {rest : List Bool}
    (h : s.answers line = v :: rest) : s.observed line = v := by
  simp only [State.observed, h]

/-- A scripted answer is used up. -/
theorem afterObs_of_answers {s : State} {line : Line} {v : Bool} {rest : List Bool}
    (h : s.answers line = v :: rest) : s.afterObs line = s.withAnswers line rest := by
  simp only [State.afterObs, h]

@[simp] theorem edgeStep_ews (s : State) (e : Edge) (line : Line) :
    (s.edgeStep e line).ews = nextEws e s.ews (s.observed line) := rfl

@[simp] theorem edgeStep_params (s : State) (e : Edge) (line : Line) : (s.edgeStep e line).params = s.params :=
  afterObs_params s line

@[simp] theorem edgeStep_buf (s : State) (e : Edge) (line : Line) : (s.edgeStep e line).buf = s.buf :=
  afterObs_buf s line

@[simp] theorem edgeStep_wr (s : State) (e : Edge) (line : Line) : (s.edgeStep e line).wr = s.wr :=
  afterObs_wr s line

@[simp] theorem edgeStep_fl (s : State) (e : Edge) (line : Line) : (s.edgeStep e line).fl = s.fl :=
  afterObs_fl s line

@[simp] theorem edgeStep_ext (s : State) (e : Edge) (line : Line) : (s.edgeStep e line).ext = s.ext :=
  afterObs_ext s line

@[simp] theorem edgeStep_is (s : State) (e : Edge) (line : Line) : (s.edgeStep e line).is = s.is :=
  afterObs_is s line

@[simp] theorem edgeStep_busy (s : State) (e : Edge) (line : Line) : (s.edgeStep e line).busy = s.busy :=
  afterObs_busy s line

@[simp] theorem edgeStep_flt (s : State) (e : Edge) (line : Line) : (s.edgeStep e line).flt = s.flt :=
  afterObs_flt s line

@[simp] theorem edgeStep_fcode (s : State) (e : Edge) (line : Line) : (s.edgeStep e line).fcode = s.fcode :=
  afterObs_fcode s line

@[simp] theorem edgeStep_finfo (s : State) (e : Edge) (line : Line) : (s.edgeStep e line).finfo = s.finfo :=
  afterObs_finfo s line

@[simp] theorem edgeStep_strat (s : State) (e : Edge) (line : Line) : (s.edgeStep e line).strat = s.strat :=
  afterObs_strat s line

@[simp] theorem edgeStep_framer (s : State) (e : Edge) (line : Line) : (s.edgeStep e line).framer = s.framer :=
  afterObs_framer s line

@[simp] theorem edgeStep_longWait (s : State) (e : Edge) (line : Line) : (s.edgeStep e line).longWait = s.longWait :=
  afterObs_longWait s line

@[simp] theorem edgeStep_cur (s : State) (e : Edge) (line : Line) : (s.edgeStep e line).cur = s.cur :=
  afterObs_cur s line

@[simp] theorem edgeStep_bi (s : State) (e : Edge) (line : Line) : (s.edgeStep e line).bi = s.bi :=
  afterObs_bi s line

@[simp] theorem edgeStep_sc (s : State) (e : Edge) (line : Line) : (s.edgeStep e line).sc = s.sc :=
  afterObs_sc s line

@[simp] theorem edgeStep_dc (s : State) (e : Edge) (line : Line) : (s.edgeStep e line).dc = s.dc :=
  afterObs_dc s line

@[simp] theorem edgeStep_oq (s : State) (e : Edge) (line : Line) : (s.edgeStep e line).oq = s.oq :=
  afterObs_oq s line

@[simp] theorem edgeStep_cph (s : State) (e : Edge) (line : Line) : (s.edgeStep e line).cph = s.cph :=
  afterObs_cph s line

@[simp] theorem edgeStep_kph (s : State) (e : Edge) (line : Line) : (s.edgeStep e line).kph = s.kph :=
  afterObs_kph s line

@[simp] theorem edgeStep_act (s : State) (e : Edge) (line : Line) : (s.edgeStep e line).act = s.act :=
  afterObs_act s line

@[simp] theorem edgeStep_out (s : State) (e : Edge) (line : Line) : (s.edgeStep e line).out = s.out :=
  afterObs_out s line

@[simp] theorem edgeStep_tx (s : State) (e : Edge) (line : Line) : (s.edgeStep e line).tx = s.tx :=
  afterObs_tx s line

@[simp] theorem edgeStep_rdata (s : State) (e : Edge) (line : Line) : (s.edgeStep e line).rdata = s.rdata :=
  afterObs_rdata s line

@[simp] theorem edgeStep_bufReads (s : State) (e : Edge) (line : Line) : (s.edgeStep e line).bufReads = s.bufReads :=
  afterObs_bufReads s line

@[simp] theorem edgeStep_hostq (s : State) (e : Edge) (line : Line) : (s.edgeStep e line).hostq = s.hostq :=
  afterObs_hostq s line

/-! ### The buffer -/

/-- Setting bit i reads back at i and leaves every other bit alone. -/
theorem getLsbD_setBit (w : BusWord) (i j : Nat) (b : Bool) :
    (setBit w i b).getLsbD j = if j = i ∧ i < 32 then b else w.getLsbD j := by
  unfold setBit
  by_cases hj : j < 32
  · by_cases h : j = i
    · subst h
      cases b <;> simp [hj]
    · cases b <;> simp [h, hj]
  · have hw : w.getLsbD j = false := BitVec.getLsbD_of_ge w j (by omega)
    have hl : ∀ v : BusWord, v.getLsbD j = false := fun v => BitVec.getLsbD_of_ge v j (by omega)
    rw [hl, hw, if_neg (by omega)]

/-- No listed entry is unwritten exactly when all are written. -/
theorem firstUnwritten_eq_none {s : State} {l : List Nat} :
    s.firstUnwritten l = none ↔ ∀ j ∈ l, s.written j = true := by
  simp [State.firstUnwritten, List.find?_eq_none]

/-- What the written check can do (R86, R90): it goes on with every entry written, or faults on the first that is not. -/
theorem guardWritten_cases (l : List Nat) (k : State → State) (s : State) :
    ((∀ j ∈ l, s.written j = true) ∧ guardWritten l k s = k s) ∨
    (∃ i ∈ l, s.firstUnwritten l = some i ∧ s.written i = false ∧
      guardWritten l k s = raiseFault .unwrittenRead (unwrittenInfo i s.cur) s) := by
  unfold guardWritten
  cases h : s.firstUnwritten l with
  | none => exact .inl ⟨firstUnwritten_eq_none.mp h, rfl⟩
  | some i =>
    have hs := List.find?_some h
    exact .inr ⟨i, List.mem_of_find?_eq_some h, rfl, by simpa using hs, rfl⟩

/-- The written check on written entries goes on. -/
theorem guardWritten_of_written {l : List Nat} {k : State → State} {s : State}
    (h : ∀ j ∈ l, s.written j = true) : guardWritten l k s = k s := by
  simp only [guardWritten, firstUnwritten_eq_none.mpr h]

/-- The entries from lo to hi - 1. -/
@[simp] theorem mem_entries {lo hi j : Nat} : j ∈ entries lo hi ↔ lo ≤ j ∧ j < hi := by
  simp only [entries, List.mem_range'_1]; omega

/-! ### One tick of a command -/

theorem command_halted {i : Instr} {f : State → Result} {s : State} (h : s.flt = true) :
    command i f s = .next s := by simp [command, h]

theorem command_busy {i : Instr} {f : State → Result} {s : State} (h : s.Busy) :
    command i f s = f s := by simp [command, h.1, h.2]

theorem command_idle {i : Instr} {f : State → Result} {s : State} (h : s.Idle) (hr : i.WellFormed) :
    command i f s = f (accept i s) := by
  simp only [Instr.WellFormed] at hr
  simp [command, h.1, h.2, hr]

/-- Every way a command's tick can end in a next state (R58, R119). -/
theorem command_cases {i : Instr} {f : State → Result} {s t : State} (h : command i f s = .next t) :
    (s.flt = true ∧ t = s) ∨ (s.Busy ∧ f s = .next t) ∨
    (s.Idle ∧ i.WellFormed ∧ f (accept i s) = .next t) ∨
    (s.Idle ∧ i.inRange = false ∧ t = raiseFault .operandRange (zext32 (encode i)) s) := by
  unfold command at h
  split at h
  · next hf => cases h; exact .inl ⟨hf, rfl⟩
  · next hf =>
    simp only [Bool.not_eq_true] at hf
    split at h
    · next hb => exact .inr (.inl ⟨⟨hf, hb⟩, h⟩)
    · next hb =>
      simp only [Bool.not_eq_true] at hb
      split at h
      · next hr => exact .inr (.inr (.inl ⟨⟨hf, hb⟩, hr, h⟩))
      · next hr => cases h; exact .inr (.inr (.inr ⟨⟨hf, hb⟩, by simpa using hr, rfl⟩))

/-- Every way a one-tick command can end in a next state. -/
theorem singleTick_cases {k : State → State} {s t : State} (h : singleTick k s = .next t) :
    s.act = .accept ∧ t = complete (k s) := by
  unfold singleTick at h
  split at h
  · next ha => cases h; exact ⟨ha, rfl⟩
  · cases h

/-! ### Passes -/

/-- The start of a spin sets SC and the next action alone (R81). -/
theorem startSpin_eq (s : State) : ∃ a, startSpin s = { s with sc := s.spinLength, act := a } := ⟨_, rfl⟩

/-- What follows the latch wait sets SC and the next action alone. -/
theorem afterLatch_eq (p : Pass) (s : State) : ∃ c a, afterLatch p s = { s with sc := c, act := a } := by
  unfold afterLatch startSpin
  split
  · split <;> exact ⟨_, _, rfl⟩
  · exact ⟨_, _, rfl⟩

/-- The start of a pass sets BI, EWS, SC and the next action alone (R78, R81). -/
theorem startPass_eq (p : Pass) (s : State) :
    ∃ c a, startPass p s = { s with bi := 0, ews := .pre, sc := c, act := a } := by
  unfold startPass
  split
  · exact ⟨_, _, rfl⟩
  · obtain ⟨c, a, h⟩ := afterLatch_eq p { s with bi := 0, ews := .pre }
    exact ⟨c, a, h⟩

/-- What follows a stored bit sets SC and the next action alone. -/
theorem nextBit_eq (p : Pass) (s : State) : ∃ c a, nextBit p s = { s with sc := c, act := a } := by
  unfold nextBit startSpin
  split <;> exact ⟨_, _, rfl⟩

/-- Every way a pass's tick can end in a next state (R78, R81). -/
theorem passTick_cases {p : Pass} {k : State → State} {s t : State} (h : passTick p k s = .next t) :
    (s.act = .latch ∧ t = (if s.edgeEnds .falling .latch then afterLatch p (s.edgeStep .falling .latch)
      else s.edgeStep .falling .latch)) ∨
    (s.act = .clock ∧ t = (if s.edgeEnds .falling .clock then { s.edgeStep .falling .clock with act := .data }
      else s.edgeStep .falling .clock)) ∨
    (s.act = .data ∧ s.bi + 1 < p.n ∧ t = nextBit p (storeBit p s)) ∨
    (s.act = .data ∧ p.n ≤ s.bi + 1 ∧ t = k (storeBit p s)) ∨
    (s.act = .spin ∧ t = { s with sc := s.sc - 1, act := if s.sc - 1 = 0 then .data else .spin }) := by
  unfold passTick at h
  split at h <;> cases h
  · next ha => exact .inl ⟨ha, rfl⟩
  · next ha => exact .inr (.inl ⟨ha, rfl⟩)
  · next ha =>
    split
    · next hn => exact .inr (.inr (.inr (.inl ⟨ha, hn, rfl⟩)))
    · next hn => exact .inr (.inr (.inl ⟨ha, by omega, rfl⟩))
  · next ha => exact .inr (.inr (.inr (.inr ⟨ha, rfl⟩)))

/-- Every way a tick of a sampling command can end in a next state. -/
theorem sampleTick_cases {p : Pass} {s t : State} (h : sampleTick p s = .next t) :
    (s.act = .accept ∧ t = startPass p s) ∨ (s.act ≠ .accept ∧ passTick p complete s = .next t) := by
  unfold sampleTick at h
  split at h
  · next ha => cases h; exact .inl ⟨ha, rfl⟩
  · next ha => exact .inr ⟨ha, h⟩

/-! ### Emissions and delays -/

/-- Every way a tick of an emission can end in a next state (R92, R95, R144). -/
theorem sendTick_cases {k : State → State} {s t : State} (h : sendTick k s = .next t) :
    s.act = .send ∧ ∃ b rest, s.oq = b :: rest ∧
      ((rest = [] ∧ t = k ({ s with oq := [] }.transmit b)) ∨
       (rest ≠ [] ∧ t = { s with oq := rest }.transmit b)) := by
  unfold sendTick at h
  split at h
  · next ha ho => cases h; exact ⟨ha, _, _, ho, .inl ⟨rfl, rfl⟩⟩
  · next b rest hne ha ho =>
    cases h
    refine ⟨ha, b, rest, ho, .inr ⟨?_, rfl⟩⟩
    rintro rfl
    exact hne rfl
  · cases h

/-- Every way a tick of a framing command can end in a next state. -/
theorem emitTick_cases {c : State → List Nat} {f : State → List Byte} {s t : State} (h : emitTick c f s = .next t) :
    (s.act = .accept ∧ t = guardWritten (c s) (queueBytes f) s) ∨
    (s.act ≠ .accept ∧ sendTick complete s = .next t) := by
  unfold emitTick at h
  split at h
  · next ha => cases h; exact .inl ⟨ha, rfl⟩
  · next ha => exact .inr ⟨ha, h⟩

/-- Every way a tick of a delay can end in a next state (R102). -/
theorem delayTick_cases {k : State → State} {s t : State} (h : delayTick k s = .next t) :
    s.act = .delay ∧
      ((s.dc ≤ 1 ∧ t = k { s with dc := s.dc - 1 }) ∨ (1 < s.dc ∧ t = { s with dc := s.dc - 1 })) := by
  unfold delayTick at h
  split at h
  · next ha =>
    cases h
    refine ⟨ha, ?_⟩
    split
    · exact .inl ⟨by omega, rfl⟩
    · exact .inr ⟨by omega, rfl⟩
  · cases h

/-- Every way a tick of a capture can end in a next state (R103). -/
theorem captureTick_cases {k : State → State} {s t : State} (h : captureTick k s = .next t) :
    (s.kph = .pass1 ∧ passTick s.basePass (afterBasePass k) s = .next t) ∨
    (s.kph = .pass2 ∧ passTick s.extPass (afterExtPass k) s = .next t) := by
  unfold captureTick at h
  split at h
  · next hk => exact .inl ⟨hk, h⟩
  · next hk => exact .inr ⟨hk, h⟩
  · cases h

/-- Every way a tick of CYCLE or RUN can end in a next state (R105, R106). -/
theorem cycleTick_cases {k : State → State} {s t : State} (h : cycleTick k s = .next t) :
    (s.act = .accept ∧ t = startCycle s) ∨
    (s.act ≠ .accept ∧ s.cph = .b ∧ captureTick afterCapture s = .next t) ∨
    (s.act ≠ .accept ∧ s.cph = .d ∧ sendTick (afterEmission k) s = .next t) ∨
    (s.act ≠ .accept ∧ s.cph = .e ∧ delayTick k s = .next t) := by
  unfold cycleTick at h
  split at h
  · next ha => cases h; exact .inl ⟨ha, rfl⟩
  · next hc ha => exact .inr (.inl ⟨ha, hc, h⟩)
  · next hc ha => exact .inr (.inr (.inl ⟨ha, hc, h⟩))
  · next hc ha => exact .inr (.inr (.inr ⟨ha, hc, h⟩))
  · cases h

end Sys2Proof.Machine
end

