-- ==== Sys2Proof/Laws/PerInstr.lean ====
section
/-! SUPPORT. A law of every command, one lemma a constructor: the opcode stands in bits 15:12 of its word (R61, R67). -/

namespace Sys2Proof.Laws.OpcodeField

/-- Bits 15:12 of the word of a command hold its opcode, whatever its operands are. -/
def Statement (i : Instr) : Prop := cwField (encode i) 12 4 = (opcodeOf i).toNat

/-- The operand bits stay below bit 12. -/
theorem of_encode (i : Instr) : Statement i := by
  have h := (operandBits i).isLt
  have h2 := (opcodeOf i).isLt
  unfold Statement
  rw [cwField_toNat, encode_toNat]
  omega

theorem nop : Statement .nop := of_encode _
theorem wfe (line : Line) : Statement (.wfe line) := of_encode _
theorem wre (line : Line) : Statement (.wre line) := of_encode _
theorem smps (l : Bool) (idx nm1 : BitVec 5) : Statement (.smps l idx nm1) := of_encode _
theorem smpl (l p : Bool) (idx nm1 : BitVec 5) : Statement (.smpl l p idx nm1) := of_encode _
theorem det : Statement .det := of_encode _
theorem emc (start : BitVec 5) (count : BitVec 6) : Statement (.emc start count) := of_encode _
theorem emd (start : BitVec 5) (count : BitVec 6) : Statement (.emd start count) := of_encode _
theorem irqoff : Statement .irqoff := of_encode _
theorem irqon : Statement .irqon := of_encode _
theorem dly : Statement .dly := of_encode _
theorem cap : Statement .cap := of_encode _
theorem emf : Statement .emf := of_encode _
theorem cycle : Statement .cycle := of_encode _
theorem run : Statement .run := of_encode _

end Sys2Proof.Laws.OpcodeField
end

