-- ==== Sys2Proof/Laws/Runs.lean ====
section
/-! SUPPORT. Runs of several ticks, and the tick of a block the host leaves alone. -/

namespace Sys2Proof.Machine

/-- A run of no ticks. -/
theorem reaches_zero {s t : State} : s.Reaches 0 t ↔ t = s := by
  constructor
  · intro h; cases h; rfl
  · rintro rfl; rfl

/-- One tick, then the rest of the run. -/
theorem reaches_succ {k : Nat} {s u t : State} (h : step s = .next u) (hr : u.Reaches k t) : s.Reaches (k + 1) t := by
  have hs : Sys2Proof.core.step s = .next u := h
  simp only [State.Reaches, Host.Core.run, hs]
  exact hr

/-- A run after a run. -/
theorem reaches_add {j k : Nat} {s u t : State} (h : s.Reaches j u) (hr : u.Reaches k t) : s.Reaches (j + k) t := by
  induction j generalizing s with
  | zero => rw [reaches_zero] at h; subst h; simpa using hr
  | succ j ih =>
    cases hs : Sys2Proof.core.step s with
    | next v =>
      simp only [State.Reaches, Host.Core.run, hs] at h
      rw [Nat.add_right_comm]
      exact reaches_succ hs (ih h)
    | fault r => simp [State.Reaches, Host.Core.run, hs] at h
    | refused r => simp [State.Reaches, Host.Core.run, hs] at h

/-- A host whose list is used up does nothing. -/
theorem hostQuiet_of_nil {s : State} (h : s.hostq = []) : s.HostQuiet := by
  simp [State.HostQuiet, State.hostNow, h]

/-- A tick the host leaves alone is the sequencer's action alone. -/
theorem step_of_quiet {s : State} (h : s.HostQuiet) : step s = sequencerTick s.openTick := by
  simp [step, tick, h.1, h.2, runTick]

end Sys2Proof.Machine
end

