-- ==== Sys2Proof/Tests/Slice0.lean ====
section
/-! SUPPORT. Tests of the model against the spec's own tables (95_test_vectors.md; a test names its vector), and for every
statement with hypotheses a witness that meets them all. -/

namespace Sys2Proof.Tests

open Sys2Proof Sys2Proof.Machine

/-! ### Helpers -/

/-- The platform of the spec's vectors: SPIN_TICKS = 3, INTERCYCLE_TICKS = 4, AUTORUN = false; M is 0x4D. -/
def platform : Params where
  oneMarker := 0x4D
  spinTicks := 3
  interCycleTicks := 4
  relatchOnExt := false
  dbgTrailingSep := false
  autorun := false
  rstStrat := false
  rstFramer := false
  rstLongWait := false

/-- The block just after reset, idle. -/
def fresh : State := State.resetOn platform

/-- The setup of V-EMC and V-EMD: BUF[0..7] = 1,0,1,1,1,0,0,1, BUF[8..31] = 1, all written. -/
def filled : State := { fresh with buf := 0xFFFFFF9D, wr := 0xFFFFFFFF }

/-- The block just after reset with the host writing v to CMD next. -/
def writing (v : BusWord) : State := { fresh with hostq := [cmdWriteEntry v] }

/-- The block in the command of a word, with the next action given. -/
def running (cur : CmdWord) (act : Action) : State := { filled with busy := true, cur := cur, act := act }

/-- A field of the state a step or a meaning ends in. -/
def look {α : Type} (f : State → α) : Result → Option α
  | .next s => some (f s)
  | .fault _ => none
  | .refused _ => none

/-- The name of the refusal a step ends in. -/
def refusal : Result → Option Refusal
  | .refused r => some r
  | .next _ => none
  | .fault _ => none

/-! ### Well-formedness: each check refuses an ill-formed command (R60) -/

theorem test_smps_past_the_buffer : ¬ (Instr.smps false 31 1).WellFormed := by decide
theorem test_smps_up_to_the_end : (Instr.smps false 31 0).WellFormed := by decide
theorem test_smpl_past_the_buffer : ¬ (Instr.smpl true true 1 31).WellFormed := by decide
theorem test_emc_count_past_32 : ¬ (Instr.emc 0 33).WellFormed := by decide
theorem test_emc_end_past_32 : ¬ (Instr.emc 1 32).WellFormed := by decide
theorem test_emd_count_past_32 : ¬ (Instr.emd 0 63).WellFormed := by decide
theorem test_emd_end_past_32 : ¬ (Instr.emd 31 2).WellFormed := by decide

/-! ### Decoding: words written out bit by bit from R61 to R67 (opcode, then the format's fields) -/

theorem test_decode_nop : decodeWord 0b0000_000000000000 = some .nop := by decide
theorem test_decode_wfe : decodeWord 0b0001_0000000000_01 = some (.wfe .clock) := by decide
theorem test_decode_wre : decodeWord 0b0010_0000000000_10 = some (.wre .data) := by decide
theorem test_decode_smps : decodeWord 0b0011_1_0_00101_01111 = some (.smps true 5 15) := by decide
theorem test_decode_smpl : decodeWord 0b0100_0_1_10000_01110 = some (.smpl false true 16 14) := by decide
theorem test_decode_det : decodeWord 0b0101_000000000000 = some .det := by decide
theorem test_decode_emc : decodeWord 0b0110_0_000100_11100 = some (.emc 28 4) := by decide
theorem test_decode_emd : decodeWord 0b0111_0_100000_00000 = some (.emd 0 32) := by decide
theorem test_decode_irqoff : decodeWord 0b1000_000000000000 = some .irqoff := by decide
theorem test_decode_irqon : decodeWord 0b1001_000000000000 = some .irqon := by decide
theorem test_decode_dly : decodeWord 0b1010_000000000000 = some .dly := by decide
theorem test_decode_cap : decodeWord 0b1011_000000000000 = some .cap := by decide
theorem test_decode_emf : decodeWord 0b1100_000000000000 = some .emf := by decide
theorem test_decode_cycle : decodeWord 0b1101_000000000000 = some .cycle := by decide
theorem test_decode_run : decodeWord 0b1110_000000000000 = some .run := by decide

/-- V-ACC-2 to V-ACC-8: the illegal words. -/
theorem test_decode_illegal :
    [0x00000001, 0x00001003, 0x00001004, 0x00003C0F, 0x0000F000, 0x00010000, 0x00006800].map decode =
      [none, none, none, none, none, none, none] := by decide

/-- The decoder as the opcode table numbers its bits, on EMC 28, 4 (V-EMC-3). -/
theorem test_table_word : decodeTableWord 16 0x609C = some (.emc 28 4) := by decide

/-! ### One tick of each command -/

/-- V-CTL-1. -/
theorem test_nop : look (fun t => (t.statusWord, t.cur)) (exec .nop fresh) = some (0, 0) := by decide
/-- V-WFE-2: the second observation ends the command. -/
theorem test_wfe : look (fun t => t.busy)
    (exec (.wfe .latch) { running 0x1000 .wait with ews := .post, latchAns := [false] }) = some false := by decide
/-- V-WRE-3: a high level at the start does not count. -/
theorem test_wre : look (fun t => (t.busy, t.ews))
    (exec (.wre .clock) { running 0x2001 .wait with clockAns := [true, true, false, true] }) = some (true, .pre) := by
  decide
/-- V-SMPS-2: DATA 1 stores 0 at entry 5. -/
theorem test_smps : look (fun t => (t.bufRead 5, t.written 5, t.busy))
    (exec (.smps false 5 0) { running 0x30A0 .data with buf := 0xFFFFFFFF, wr := 0, dataAns := [true] }) =
      some (false, true, false) := by decide
/-- V-SMPL-2: with LONGWAIT the spin after a bit is 6 ticks. -/
theorem test_smpl : look (fun t => (t.bufRead 0, t.act, t.sc))
    (exec (.smpl false false 0 2) { running 0x4002 .data with longWait := true, dataAns := [false] }) =
      some (true, .spin, 6) := by decide
/-- V-DET-3: m = 1, t = 0 is extended. -/
theorem test_det_extended : look (fun t => t.statusWord)
    (exec .det { fresh with buf := 0x8000, wr := 0xFFFF }) = some 0x0000000C := by decide
/-- V-DET-5. -/
theorem test_det_unwritten : look (fun t => (t.statusWord, t.finfo)) (exec .det fresh) =
    some (0x00000510, 0x000D5000) := by decide
/-- V-EMC-1. -/
theorem test_emc : look (fun t => t.oq) (exec (.emc 0 4) filled) = some [0x4D, 0x00, 0x4D, 0x4D, 0x0A] := by decide
/-- P4: entry 4 is unwritten. -/
theorem test_emc_unwritten : look (fun t => (t.statusWord, t.finfo)) (exec (.emc 0 8) { fresh with wr := 0xF }) =
    some (0x00000510, 0x00046100) := by decide
/-- V-EMD-4. -/
theorem test_emd : look (fun t => t.oq) (exec (.emd 3 5) filled) =
    some [0x31, 0x30, 0x31, 0x7C, 0x31, 0x31, 0x30, 0x30, 0x31, 0x0A] := by decide
/-- V-EMD-6: the separator before the ninth digit. -/
theorem test_emd_group : look (fun t => t.oq) (exec (.emd 0 9) filled) =
    some [0x7C, 0x31, 0x30, 0x31, 0x31, 0x31, 0x30, 0x30, 0x31, 0x7C, 0x31, 0x0A] := by decide
/-- V-CTL-2. -/
theorem test_irqoff : look (fun t => (t.statusWord, t.irqSuspend)) (exec .irqoff fresh) = some (2, true) := by decide
/-- V-CTL-3: no nesting. -/
theorem test_irqon : look (fun t => t.irqSuspend) (exec .irqon { fresh with is := true }) = some false := by decide
/-- V-CTL-5: D = 0 is one tick. -/
theorem test_dly_none : look (fun t => t.busy)
    (exec .dly { fresh with params := { platform with interCycleTicks := 0 } }) = some false := by decide
/-- V-CTL-4: after the acceptance tick, four ticks are to go. -/
theorem test_dly : look (fun t => (t.busy, t.dc)) (exec .dly fresh) = some (true, 4) := by decide
/-- V-CAP-5: while the extension pass runs, STATUS shows EXT = 1, FL = 0, BUSY = 1. -/
theorem test_cap : look (fun t => t.statusWord)
    (exec .cap { running 0xB000 .data with kph := .pass1, bi := 15, dataAns := [false] }) = some 0x00000009 := by decide
/-- V-CAP-1: m = 0, t = 1 ends with a base frame. -/
theorem test_cap_base : look (fun t => (t.statusWord, t.bufRead 15))
    (exec .cap { running 0xB000 .data with kph := .pass1, bi := 15, dataAns := [true] }) = some (0, false) := by decide
/-- V-EMF-1: 17 bytes. -/
theorem test_emf : look (fun t => t.oq.length) (exec .emf filled) = some 17 := by decide
/-- V-EMF-2: 37 bytes. -/
theorem test_emf_debug : look (fun t => t.oq.length) (exec .emf { filled with fl := true, framer := true }) = some 37 := by
  decide
/-- P2, step a: IS = 1 in the acceptance tick. -/
theorem test_cycle : look (fun t => t.statusWord) (exec .cycle fresh) = some 3 := by decide
/-- V-REG-8: STATUS after the first tick after reset with AUTORUN. -/
theorem test_run_after_reset : look (fun t => t.statusWord)
    (step (State.resetOn { platform with autorun := true })) = some 0x00000003 := by decide
/-- R106: the tick that ends the delay begins the next cycle. -/
theorem test_run_repeats : look (fun t => (t.busy, t.is, t.act))
    (exec .run { running 0xE000 .delay with cph := .e, dc := 1 }) = some (true, true, .latch) := by decide

/-! ### Acceptance, faults and registers, one step each -/

/-- V-ACC-1, V-ACC-3, V-ACC-7, V-ACC-9, V-ACC-13, V-ACC-14: STATUS and FINFO just after the write. -/
theorem test_acceptance :
    [0x00000000, 0x00001003, 0x00010000, 0x000033E1, 0x00006401, 0x00006400].map
        (fun v => look (fun t => (t.statusWord, t.finfo)) (step (writing v))) =
      [some (0, 0), some (0x00000110, 0x00001003), some (0x00000110, 0x00000000), some (0x00000210, 0x000033E1),
       some (0x00000210, 0x00006401), some (0x00000510, 0x00006400)] := by decide
/-- V-ACC-19: an overrun wins over an illegal value. -/
theorem test_overrun : look (fun t => (t.statusWord, t.finfo))
    (step { running 0x1000 .wait with hostq := [cmdWriteEntry 0x0000F000] }) = some (0x00000310, 0x0000F000) := by decide
/-- V-ACC-17: CFG is unchanged and IS cleared. -/
theorem test_cfg_busy : look (fun t => (t.statusWord, t.finfo, t.cfgWord))
    (step { running 0xD000 .latch with is := true, cph := .b, hostq := [cfgWriteEntry 0x00000003] }) =
      some (0x00000410, 0x00000003, 0) := by decide
/-- V-REG-2: bits 31:3 of a CFG write are ignored. -/
theorem test_cfg_idle : look (fun t => t.cfgWord) (step { fresh with hostq := [cfgWriteEntry 0xFFFFFFFF] }) =
    some 0x00000007 := by decide
/-- V-REG-7: STATUS just after reset. -/
theorem test_status_read : look (fun t => t.rdata)
    (step { fresh with hostq := [{ rst := false, access := some (.read .word 0x04) }] }) = some (some 0) := by decide
/-- V-REG-5: refused accesses. -/
theorem test_refused_accesses :
    refusal (step { fresh with hostq := [{ rst := false, access := some (.read .byte 0x04) }] }) = some .subwordAccess ∧
    refusal (step { fresh with hostq := [{ rst := false, access := some (.read .word 0x06) }] }) =
      some .misalignedAccess := by decide
/-- The state `withFetchWord` gives runs the word in the very next step, also just after a reset with AUTORUN. -/
theorem test_with_fetch_word : look (fun t => (t.is, t.cur))
    (step ((State.resetOn { platform with autorun := true }).withFetchWord 16 0x8000)) = some (true, 0x8000) := by decide

/-! ### Witnesses: concrete states and operands that meet all the hypotheses of a statement together, for each clause -/

/-- The host's entry that reads a register. -/
abbrev readEntry (off : BitVec 5) : HostTick := { rst := false, access := some (.read .word off) }

/-- A state with the invariant: idle, everything written. -/
theorem filled_inv : filled.Inv :=
  ⟨by decide, ⟨by decide, by decide, by decide⟩, ⟨by decide, by decide, by decide⟩, by decide, by decide,
    fun h => absurd h (by decide)⟩

theorem witness_ResetTickResetsTheBlock :
    (let s := { running 0x1000 .wait with hostq := [{ rst := true, access := none }] }
     s.hostNow.rst = true ∧ s.hostNow.access = none) ∧
    (let s := { running 0x1000 .wait with hostq := [{ rst := true, access := some (.write .word 0x1C 5) }] }
     s.hostNow.rst = true ∧ ∃ off v, s.hostNow.access = some (.write .word off v) ∧ off.toNat % 4 = 0) :=
  ⟨by decide, by decide, 0x1C, 5, by decide, by decide⟩

theorem witness_FirstTickAfterReset :
    { platform with autorun := true }.autorun = true ∧ platform.autorun = false := by decide

theorem witness_EncodeRestoresDecodedWord :
    decode 0x0000FFFF = none ∧ decode 0x00004FFF = some (.smpl true true 31 31) := by decide

/-- One value for each of the six cases of R59, and one that is legal beside them. -/
theorem witness_DecoderRefusesExactlyIllegalValues :
    [0x00010000, 0x0000F000, 0x0000E001, 0x00001004, 0x00002003, 0x00003400, 0x00007800].map decode =
      [none, none, none, none, none, none, none] ∧
    decode 0x000077FF = some (.emd 31 63) := by decide

/-- Each format at the boundary: the last value in range and the first out of it. -/
theorem witness_RangeCheckMatchesWordFields :
    decode 0x000033E0 = some (.smps false 31 0) ∧ (Instr.smps false 31 0).inRange = true ∧
    decode 0x000033E1 = some (.smps false 31 1) ∧ (Instr.smps false 31 1).inRange = false ∧
    decode 0x0000401F = some (.smpl false false 0 31) ∧ (Instr.smpl false false 0 31).inRange = true ∧
    decode 0x0000403F = some (.smpl false false 1 31) ∧ (Instr.smpl false false 1 31).inRange = false ∧
    decode 0x00006400 = some (.emc 0 32) ∧ (Instr.emc 0 32).inRange = true ∧
    decode 0x00006420 = some (.emc 0 33) ∧ (Instr.emc 0 33).inRange = false ∧
    decode 0x0000703F = some (.emd 31 1) ∧ (Instr.emd 31 1).inRange = true ∧
    decode 0x0000705F = some (.emd 31 2) ∧ (Instr.emd 31 2).inRange = false := by decide

theorem witness_StepRunsTheWrittenCommand :
    (writing 0x0000B000).Idle ∧ (writing 0x0000B000).hostq = cmdWriteEntry 0x0000B000 :: [] ∧
    decode 0x0000B000 = some .cap := by decide

theorem witness_StepContinuesTheRunningCommand :
    (running 0x1001 .wait).Busy ∧ (running 0x1001 .wait).HostQuiet ∧
    decodeWord (running 0x1001 .wait).cur = some (.wfe .clock) := by decide

theorem witness_IdleBlockStaysAsItIs : filled.Idle ∧ filled.HostQuiet := by decide

theorem witness_RejectedCommandsFault :
    ((writing 0x0000F000).Idle ∧ (writing 0x0000F000).hostq = cmdWriteEntry 0x0000F000 :: [] ∧
      decode 0x0000F000 = none) ∧
    (fresh.Idle ∧ (Instr.emc 1 32).inRange = false) := by decide

theorem witness_OverrunStopsTheRunningCommand :
    let s := { running 0x1001 .wait with hostq := [cmdWriteEntry 0xFFFFFFFF] }
    s.Busy ∧ s.hostq = cmdWriteEntry 0xFFFFFFFF :: [] := by decide

theorem witness_CfgRegisterBehaviour :
    (let s := { fresh with flt := true, hostq := [cfgWriteEntry 7] }
     s.hostq = cfgWriteEntry 7 :: [] ∧ s.flt = true) ∧
    (let s := { running 0x1001 .wait with hostq := [cfgWriteEntry 7] }
     s.hostq = cfgWriteEntry 7 :: [] ∧ s.Busy) ∧
    (let s := { fresh with hostq := [cfgWriteEntry 7] }
     s.hostq = cfgWriteEntry 7 :: [] ∧ s.Idle) ∧
    (let s := { fresh with hostq := [readEntry 0x08] }
     s.hostNow = readEntry 0x08 ∧ ∃ t, step s = .next t) :=
  ⟨by decide, by decide, by decide, by decide, _, rfl⟩

theorem witness_HaltedBlockStaysHalted :
    (let s := { fresh with flt := true, fcode := .illegalCommand }
     s.flt = true ∧ s.hostNow.rst = false ∧ s.hostNow.access = none) ∧
    (let s := { fresh with flt := true, fcode := .illegalCommand, hostq := [readEntry 0x1C] }
     s.flt = true ∧ s.hostNow.rst = false ∧ (0x1C : BitVec 5).toNat % 4 = 0 ∧
       s.hostNow.access = some (.read .word 0x1C)) ∧
    (let s := { fresh with flt := true, fcode := .illegalCommand, hostq := [cmdWriteEntry 0xD000] }
     s.flt = true ∧ s.hostNow.rst = false ∧ (0x00 : BitVec 5).toNat % 4 = 0 ∧
       s.hostNow.access = some (.write .word 0x00 0xD000)) := by decide

/-- Each of the four clauses, the reserved offsets at both ends, and a busy block. -/
theorem witness_HostReadShowsTheBoundaryState :
    ∀ off ∈ [(0x00 : BitVec 5), 0x04, 0x10, 0x14, 0x1C],
      { filled with hostq := [readEntry off] }.hostNow = readEntry off ∧
      (∃ t, step { filled with hostq := [readEntry off] } = .next t) ∧
      { running 0x1001 .wait with hostq := [readEntry off] }.hostNow = readEntry off ∧
      (∃ t, step { running 0x1001 .wait with hostq := [readEntry off] } = .next t) := by
  intro off h
  simp only [List.mem_cons, List.not_mem_nil, or_false] at h
  rcases h with rfl | rfl | rfl | rfl | rfl <;> exact ⟨by decide, ⟨_, rfl⟩, by decide, _, rfl⟩

theorem witness_BufReadShowsWrittenEntries :
    { filled with hostq := [readEntry 0x0C] }.hostNow = readEntry 0x0C ∧
    (∃ t, step { filled with hostq := [readEntry 0x0C] } = .next t) ∧ filled.wr.getLsbD 31 = true :=
  ⟨by decide, ⟨_, rfl⟩, by decide⟩

/-- An idle block; and a busy one in a tick that observes, with the read and without. -/
theorem witness_HostReadHasNoSideEffect :
    ({ filled with hostq := [readEntry 0x1C] }.busy = false ∧ (0x1C : BitVec 5).toNat % 4 = 0 ∧
      { filled with hostq := [readEntry 0x1C] }.hostNow = readEntry 0x1C) ∧
    (∃ t, step { running 0x1001 .wait with hostq := [{ rst := false, access := none }] } = .next t ∧ t.busy = true) ∧
    (∃ t, step { running 0x1001 .wait with hostq := [readEntry 0x0C] } = .next t ∧ t.busy = true) :=
  ⟨by decide, ⟨_, rfl, rfl⟩, _, rfl, rfl⟩

theorem witness_WritesToReadOnlyRegistersHaveNoEffect :
    (0x04 : BitVec 5) ∈ [(0x04 : BitVec 5), 0x0C, 0x10, 0x14, 0x18, 0x1C] ∧
    (0x1C : BitVec 5) ∈ [(0x04 : BitVec 5), 0x0C, 0x10, 0x14, 0x18, 0x1C] := by decide

theorem witness_OtherAccessesAreRefused :
    (let s := { fresh with hostq := [{ rst := false, access := some (.read .half 0x02) }] }
     s.hostq = { rst := false, access := some (.read .half 0x02) } :: [] ∧ AccessSize.half ≠ .word) ∧
    (let s := { fresh with hostq := [{ rst := true, access := some (.write .word 0x1F 0) }] }
     s.hostq = { rst := true, access := some (.write .word 0x1F 0) } :: [] ∧
       (0x1F : BitVec 5).toNat % 4 ≠ 0) := by decide

theorem witness_WaitsBeginInPre : fresh.Idle := by decide

/-- Each of the four clauses; a line of its own for each wait. -/
theorem witness_WfeObservesHighThenLow :
    (let s := { running 0x1000 .wait with ews := .pre, latchAns := [true] }
     s.Busy ∧ s.act = .wait ∧ s.ews = .pre ∧ s.observed .latch = true) ∧
    (let s := { running 0x1001 .wait with ews := .pre, clockAns := [false] }
     s.Busy ∧ s.act = .wait ∧ s.ews = .pre ∧ s.observed .clock = false) ∧
    (let s := { running 0x1002 .wait with ews := .post, dataAns := [true] }
     s.Busy ∧ s.act = .wait ∧ s.ews = .post ∧ s.observed .data = true) ∧
    (let s := { running 0x1000 .wait with ews := .post, latchAns := [false] }
     s.Busy ∧ s.act = .wait ∧ s.ews = .post ∧ s.observed .latch = false) := by decide

theorem witness_WreObservesLowThenHigh :
    (let s := { running 0x2000 .wait with ews := .pre, latchAns := [false] }
     s.Busy ∧ s.act = .wait ∧ s.ews = .pre ∧ s.observed .latch = false) ∧
    (let s := { running 0x2001 .wait with ews := .pre, clockAns := [true] }
     s.Busy ∧ s.act = .wait ∧ s.ews = .pre ∧ s.observed .clock = true) ∧
    (let s := { running 0x2002 .wait with ews := .post, dataAns := [false] }
     s.Busy ∧ s.act = .wait ∧ s.ews = .post ∧ s.observed .data = false) ∧
    (let s := { running 0x2000 .wait with ews := .post, latchAns := [true] }
     s.Busy ∧ s.act = .wait ∧ s.ews = .post ∧ s.observed .latch = true) := by decide

theorem witness_ObservationUsesUpOneAnswer :
    { fresh with dataAns := [true, false] }.answers .data = true :: [false] ∧ Line.latch ≠ Line.data := by decide

/-- V-WFE-1 with an answer left over, V-WFE-2, V-WRE-1 and V-WRE-2. -/
theorem witness_WaitsEndAtTheirEdge :
    (let s := { writing (zext32 (encode (.wfe .clock))) with clockAns := [false, true, true, false, true] }
     s.Idle ∧ s.hostq = [cmdWriteEntry (zext32 (encode (.wfe .clock)))] ∧
       s.answers .clock = edgeAnswers (1, 1) ++ [true]) ∧
    (let s := { writing (zext32 (encode (.wfe .latch))) with latchAns := [true, false] }
     s.Idle ∧ s.hostq = [cmdWriteEntry (zext32 (encode (.wfe .latch)))] ∧
       s.answers .latch = edgeAnswers (0, 0) ++ []) ∧
    (let s := { writing (zext32 (encode (.wre .latch))) with latchAns := [true, false, false, true] }
     s.Idle ∧ s.hostq = [cmdWriteEntry (zext32 (encode (.wre .latch)))] ∧
       s.answers .latch = (edgeAnswers (1, 1)).map (fun v => !v) ++ []) ∧
    (let s := { writing (zext32 (encode (.wre .data))) with dataAns := [false, true] }
     s.Idle ∧ s.hostq = [cmdWriteEntry (zext32 (encode (.wre .data)))] ∧
       s.answers .data = (edgeAnswers (0, 0)).map (fun v => !v) ++ []) := by decide

/-- V-WFE-3, V-WFE-4 and a WRE; the CLOCK hang of V-SMPS-5 after two bits, the LATCH hang of V-SMPL-5, and the hangs of CAP
(V-CAP-5), CYCLE and RUN. -/
theorem witness_WaitHangsWithoutFault :
    (let s := { running (encode (.wfe .data)) .wait with ews := .pre, dataAns := [false, false, false] }
     s.Busy ∧ s.hostq = [] ∧ s.cur = encode (.wfe .data) ∧ s.act = .wait ∧ false = decide (s.ews = .post) ∧
       s.answers .data = List.replicate 3 false ++ []) ∧
    (let s := { running (encode (.wfe .clock)) .wait with ews := .post, clockAns := [true, true, true] }
     s.Busy ∧ s.hostq = [] ∧ s.cur = encode (.wfe .clock) ∧ s.act = .wait ∧ true = decide (s.ews = .post) ∧
       s.answers .clock = List.replicate 3 true ++ []) ∧
    (let s := { running (encode (.wre .latch)) .wait with ews := .pre, latchAns := [true, true] }
     s.Busy ∧ s.hostq = [] ∧ s.cur = encode (.wre .latch) ∧ s.act = .wait ∧ true = decide (s.ews = .pre) ∧
       s.answers .latch = List.replicate 2 true ++ []) ∧
    (let s := { running (encode (.smps false 0 3)) .clock with
       wr := 3, bi := 2, ews := .post, clockAns := [true, true] }
     s.Busy ∧ s.hostq = [] ∧ s.cur = encode (.smps false 0 3) ∧ s.act = .clock ∧ true = decide (s.ews = .post) ∧
       s.answers .clock = List.replicate 2 true ++ []) ∧
    (let s := { running (encode (.smpl true false 0 15)) .latch with ews := .post, latchAns := [true] }
     s.Busy ∧ s.hostq = [] ∧ s.cur = encode (.smpl true false 0 15) ∧ s.act = .latch ∧
       true = decide (s.ews = .post) ∧ s.answers .latch = List.replicate 1 true ++ []) ∧
    (let s := { running (encode .cap) .clock with kph := .pass2, ext := true, bi := 4, clockAns := [false] }
     s.Busy ∧ s.hostq = [] ∧ s.cur = encode .cap ∧ s.kph ≠ .classify ∧ s.act = .clock ∧
       false = decide (s.ews = .post) ∧ s.answers .clock = List.replicate 1 false ++ []) ∧
    (∀ i ∈ [Instr.cycle, .run],
      let s := { running (encode i) .latch with is := true, cph := .b, latchAns := [false] }
      s.Busy ∧ s.hostq = [] ∧ s.cur = encode i ∧ s.cph = .b ∧ s.kph ≠ .classify ∧ s.act = .latch ∧
        false = decide (s.ews = .post) ∧ s.answers .latch = List.replicate 1 false ++ []) := by decide

theorem witness_WaitsChangeNothingElse :
    (∃ t, exec (.wfe .data) { running 0x1002 .wait with dataAns := [true] } = .next t) ∧
    (∃ t, exec (.wre .data) { running 0x2002 .wait with dataAns := [true] } = .next t) := ⟨⟨_, rfl⟩, _, rfl⟩

theorem witness_BufWriteStoresOneEntry : (31 : Nat) < 32 ∧ (0 : Nat) < 32 := by decide

theorem witness_SamplingCommandsBegin :
    fresh.Idle ∧ 1 ≤ fresh.params.spinTicks ∧ (31 : BitVec 5).toNat + (0 : BitVec 5).toNat + 1 ≤ 32 := by decide

theorem witness_SmpsWaitsForItsEdges :
    ((running 0x3801 .latch).Busy ∧ (running 0x3801 .latch).act = .latch) ∧
    ((running 0x3801 .clock).Busy ∧ (running 0x3801 .clock).act = .clock) := by decide

theorem witness_SmpsStoresTheNegatedLevel :
    (let s := { running 0x3801 .data with bi := 0 }
     s.Busy ∧ s.act = .data ∧ s.bi < (1 : BitVec 5).toNat) ∧
    (let s := { running 0x3801 .data with bi := 1 }
     s.Busy ∧ s.act = .data ∧ s.bi = (1 : BitVec 5).toNat) := by decide

theorem witness_SmplSamplesAndSpins :
    (let s := { running 0x4081 .data with bi := 0 }
     s.Busy ∧ 1 ≤ s.params.spinTicks ∧ s.act = .data ∧ s.bi < (1 : BitVec 5).toNat) ∧
    (let s := { running 0x4081 .data with bi := 1 }
     s.Busy ∧ 1 ≤ s.params.spinTicks ∧ s.act = .data ∧ s.bi = (1 : BitVec 5).toNat) ∧
    (let s := { running 0x4081 .spin with sc := 1 }
     s.Busy ∧ 1 ≤ s.params.spinTicks ∧ s.act = .spin) ∧
    (let s := { running 0x4881 .latch with ews := .post, latchAns := [false] }
     s.Busy ∧ 1 ≤ s.params.spinTicks ∧ s.act = .latch) := by decide

/-- V-SMPS-1, with L = 1; and V-SMPS-4, with L = 0 and a low level before the edge. -/
theorem witness_SmpsCapturesAWholePass :
    (let s := { writing (zext32 (encode (.smps true 0 1))) with
       latchAns := [true, false], clockAns := [true, false, true, false], dataAns := [false, true] }
     s.Idle ∧ (Instr.smps true 0 1).WellFormed ∧
       s.hostq = [cmdWriteEntry (zext32 (encode (.smps true 0 1)))] ∧
       [false, true].length = (1 : BitVec 5).toNat + 1 ∧ [(0, 0), (0, 0)].length = [false, true].length ∧
       s.latchAns = edgeAnswers (0, 0) ++ [] ∧ s.clockAns = [(0, 0), (0, 0)].flatMap edgeAnswers ++ [] ∧
       s.dataAns = [false, true] ++ []) ∧
    (let s := { writing (zext32 (encode (.smps false 3 0))) with
       clockAns := [false, false, true, false], dataAns := [false] }
     s.Idle ∧ (Instr.smps false 3 0).WellFormed ∧
       s.hostq = [cmdWriteEntry (zext32 (encode (.smps false 3 0)))] ∧
       [false].length = (0 : BitVec 5).toNat + 1 ∧ [(2, 0)].length = [false].length ∧
       s.latchAns = [] ++ [] ∧ s.clockAns = [(2, 0)].flatMap edgeAnswers ++ [] ∧ s.dataAns = [false] ++ []) := by decide

/-- V-SMPL-1; and a pass with L = 1 and P = 1 at the end of the buffer. -/
theorem witness_SmplCapturesAWholePass :
    (let s := { writing (zext32 (encode (.smpl false false 4 1))) with dataAns := [true, false] }
     s.Idle ∧ (Instr.smpl false false 4 1).WellFormed ∧ 1 ≤ s.params.spinTicks ∧
       s.hostq = [cmdWriteEntry (zext32 (encode (.smpl false false 4 1)))] ∧
       [true, false].length = (1 : BitVec 5).toNat + 1 ∧ s.latchAns = [] ++ [] ∧ s.dataAns = [true, false] ++ []) ∧
    (let s := { writing (zext32 (encode (.smpl true true 31 0))) with latchAns := [true, false], dataAns := [true] }
     s.Idle ∧ (Instr.smpl true true 31 0).WellFormed ∧ 1 ≤ s.params.spinTicks ∧
       s.hostq = [cmdWriteEntry (zext32 (encode (.smpl true true 31 0)))] ∧
       [true].length = (0 : BitVec 5).toNat + 1 ∧ s.latchAns = edgeAnswers (0, 0) ++ [] ∧ s.dataAns = [true] ++ []) := by
  decide

theorem witness_SamplingChangesNothingElse :
    (31 : BitVec 5).toNat + (0 : BitVec 5).toNat + 1 ≤ 32 ∧
    (∃ t, exec (.smps false 31 0) (running 0x33E0 .data) = .next t) ∧
    (∃ t, exec (.smpl false false 31 0) (running 0x43E0 .data) = .next t) ∧
    (5 : Nat) ≠ (31 : BitVec 5).toNat + (running 0x33E0 .data).bi :=
  ⟨by decide, ⟨_, rfl⟩, ⟨_, rfl⟩, by decide⟩

theorem witness_DetClassifiesOrFaults :
    (filled.Idle ∧ filled.written 13 = true ∧ filled.written 15 = true) ∧
    (fresh.Idle ∧ fresh.written 13 = false) ∧
    ({ fresh with wr := 0x2000 }.Idle ∧ { fresh with wr := 0x2000 }.written 13 = true ∧
      { fresh with wr := 0x2000 }.written 15 = false) := by decide

theorem witness_DetChangesNothingElse :
    (∃ t, exec .det filled = .next t ∧ t.flt = false) ∧ (∃ t, exec .det fresh = .next t ∧ t.flt = true) :=
  ⟨⟨_, rfl, by decide⟩, _, rfl, by decide⟩

theorem witness_CompactFrameContent : (31 : Nat) < 32 := by decide

/-- Start 3 and count 16: the last prefix digit, the first and last digit, the one place of a group separator, and a final full
group on a platform that asks for a separator after it. -/
theorem witness_DebugFrameContent :
    (2 < 3 ∧ 0 < 16 ∧ 15 < 16 ∧ (0 < 8 ∧ 8 < 16 ∧ 8 % 8 = 0)) ∧
    (let s := { filled with params := { platform with dbgTrailingSep := true } }
     s.params.dbgTrailingSep = true ∧ 0 < 16 ∧ 16 % 8 = 0) := by decide

theorem witness_FramesEndAtTheirOnlyNewline : filled.params.Admissible := by decide

theorem witness_EmissionsBegin :
    (filled.Idle ∧ (28 : BitVec 5).toNat + (4 : BitVec 6).toNat ≤ 32 ∧
      ∀ j, (28 : BitVec 5).toNat ≤ j → j < (28 : BitVec 5).toNat + (4 : BitVec 6).toNat → filled.written j = true) ∧
    (∀ j, j < (28 : BitVec 5).toNat + (4 : BitVec 6).toNat → filled.written j = true) ∧
    (∀ j, j < (if filled.fl then 32 else 16) → filled.written j = true) := by
  refine ⟨⟨by decide, by decide, ?_⟩, by decide, by decide⟩
  intro j _ h
  revert h
  revert j
  decide

/-- P4 for EMC; V-EMD-9 for EMD; V-DET-7 for EMF. -/
theorem witness_EmissionsFaultOnUnwrittenEntries :
    ({ fresh with wr := 0xF }.Idle ∧ (Instr.emc 0 8).WellFormed ∧ 4 < (0 : BitVec 5).toNat + (8 : BitVec 6).toNat ∧
      { fresh with wr := 0xF }.written 4 = false ∧ ∀ j, j < 4 → { fresh with wr := 0xF }.written j = true) ∧
    ({ fresh with wr := 0xF }.Idle ∧ (Instr.emd 2 4).WellFormed ∧ 4 < (2 : BitVec 5).toNat + (4 : BitVec 6).toNat) ∧
    ({ fresh with wr := 0xFFFF, fl := true }.Idle ∧ Instr.emf.WellFormed ∧
      { fresh with wr := 0xFFFF, fl := true }.written 16 = false ∧
      ∀ j, j < 16 → { fresh with wr := 0xFFFF, fl := true }.written j = true) := by decide

theorem witness_EmissionsSendAByteATick :
    let s := { running 0x6000 .send with oq := [0x0A] }
    s.Busy ∧ s.act = .send ∧ s.oq = 0x0A :: [] := by decide

/-- EMC with no entry written below its start, EMD over the whole buffer, and EMF at both frame lengths and in both encodings. -/
theorem witness_EmissionsAppendTheWholeFrame :
    (let s := { filled with wr := 0xF0000000, hostq := [cmdWriteEntry (zext32 (encode (.emc 28 4)))] }
     s.Idle ∧ (Instr.emc 28 4).WellFormed ∧ s.hostq = [cmdWriteEntry (zext32 (encode (.emc 28 4)))] ∧
       ∀ j, j < (28 : BitVec 5).toNat + (4 : BitVec 6).toNat → (28 : BitVec 5).toNat ≤ j → s.written j = true) ∧
    (let s := { filled with hostq := [cmdWriteEntry (zext32 (encode (.emd 0 32)))] }
     s.Idle ∧ (Instr.emd 0 32).WellFormed ∧ s.hostq = [cmdWriteEntry (zext32 (encode (.emd 0 32)))] ∧
       ∀ j, j < (0 : BitVec 5).toNat + (32 : BitVec 6).toNat → s.written j = true) ∧
    (let s := { filled with wr := 0x0000FFFF, hostq := [cmdWriteEntry (zext32 (encode .emf))] }
     s.Idle ∧ Instr.emf.WellFormed ∧ s.hostq = [cmdWriteEntry (zext32 (encode .emf))] ∧ s.framer = false ∧
       ∀ j, j < (if s.fl then 32 else 16) → s.written j = true) ∧
    (let s := { filled with fl := true, framer := true, hostq := [cmdWriteEntry (zext32 (encode .emf))] }
     s.Idle ∧ Instr.emf.WellFormed ∧ s.hostq = [cmdWriteEntry (zext32 (encode .emf))] ∧ s.framer = true ∧
       ∀ j, j < (if s.fl then 32 else 16) → s.written j = true) := by decide

theorem witness_EmissionsChangeNothingElse :
    (∃ t, exec (.emc 0 4) filled = .next t ∧ t.flt = false) ∧ (∃ t, exec (.emd 0 4) fresh = .next t ∧ t.flt = true) ∧
    (∃ t, exec .emf { running 0xC000 .send with oq := [0x0A] } = .next t ∧ t.flt = false) :=
  ⟨⟨_, rfl, by decide⟩, ⟨_, rfl, by decide⟩, _, rfl, by decide⟩

theorem witness_OneTickCommandsComplete : filled.Idle := by decide

theorem witness_DlyCountsDownAndCompletes :
    (let s := { fresh with params := { platform with interCycleTicks := 0 } }
     s.Idle ∧ s.params.interCycleTicks = 0) ∧
    (fresh.Idle ∧ 0 < fresh.params.interCycleTicks) ∧
    (let s := { running 0xA000 .delay with dc := 2 }
     s.Busy ∧ s.act = .delay ∧ 1 < s.dc) ∧
    (let s := { running 0xA000 .delay with dc := 1 }
     s.Busy ∧ s.act = .delay ∧ s.dc = 1) := by decide

theorem witness_DlyTakesTheInterCycleTicks :
    (writing 0xA000).Idle ∧ (writing 0xA000).hostq = [cmdWriteEntry 0xA000] ∧
    0 < 4 ∧ 4 < 1 + (writing 0xA000).params.interCycleTicks := by decide

theorem witness_OneTickCommandsChangeNothingElse :
    ∀ i ∈ [Instr.nop, .irqoff, .irqon, .dly], ∃ t, exec i filled = .next t := by
  intro i h
  simp only [List.mem_cons, List.not_mem_nil, or_false] at h
  rcases h with rfl | rfl | rfl | rfl <;> exact ⟨_, rfl⟩

theorem witness_CapturesBegin : filled.Idle := by decide

/-- The ticks inside a pass: DATA at bits 0 and 14, in both passes and both strategies; spin; CLOCK; LATCH in both passes. -/
theorem witness_CapSamplesClassifiesAndCompletes_ticks :
    (let s := { running 0xB000 .data with bi := 0, kph := .pass1, dataAns := [true] }
     s.Busy ∧ s.kph = .pass1 ∧ 1 ≤ s.params.spinTicks ∧ s.act = .data ∧ s.bi < 15) ∧
    (let s := { running 0xB000 .data with bi := 14, kph := .pass2, strat := true, dataAns := [false] }
     s.Busy ∧ s.kph = .pass2 ∧ 1 ≤ s.params.spinTicks ∧ s.act = .data ∧ s.bi < 15) ∧
    (let s := { running 0xB000 .spin with kph := .pass2, strat := true, sc := 1 }
     s.Busy ∧ s.kph = .pass2 ∧ 1 ≤ s.params.spinTicks ∧ s.act = .spin) ∧
    (let s := { running 0xB000 .clock with kph := .pass1, ews := .post, clockAns := [false] }
     s.Busy ∧ s.kph = .pass1 ∧ 1 ≤ s.params.spinTicks ∧ s.act = .clock) ∧
    (let s := { running 0xB000 .latch with kph := .pass1, strat := true, ews := .post, latchAns := [false] }
     s.Busy ∧ s.kph = .pass1 ∧ 1 ≤ s.params.spinTicks ∧ s.act = .latch) ∧
    (let s := { running 0xB000 .latch with kph := .pass2, params := { platform with relatchOnExt := true } }
     s.Busy ∧ s.kph = .pass2 ∧ 1 ≤ s.params.spinTicks ∧ s.act = .latch ∧ s.params.relatchOnExt = true) := by decide

/-- The ends of the two passes. -/
theorem witness_CapSamplesClassifiesAndCompletes_ends :
    (let s := { running 0xB000 .data with bi := 15, kph := .pass1, dataAns := [true] }
     s.Busy ∧ s.act = .data ∧ s.bi = 15 ∧ s.kph = .pass1 ∧ s.written 13 = true ∧ 1 ≤ s.params.spinTicks ∧
       s.observed .data = true ∧ s.bufRead 13 = true) ∧
    (let s := { running 0xB000 .data with bi := 15, kph := .pass1, buf := 0, dataAns := [true] }
     s.Busy ∧ s.act = .data ∧ s.bi = 15 ∧ s.kph = .pass1 ∧ s.written 13 = true ∧ 1 ≤ s.params.spinTicks ∧
       s.bufRead 13 = false) ∧
    (let s := { running 0xB000 .data with bi := 15, kph := .pass2, dataAns := [false] }
     s.Busy ∧ s.act = .data ∧ s.bi = 15 ∧ s.kph = .pass2) := by decide

/-- A tick that goes on in each of the steps (b), (d) and (e). -/
theorem witness_CyclesRunTheirStepsAndRepeat_steps :
    (let s := { running 0xD000 .clock with cph := .b, kph := .pass1 }
     s.Busy ∧ s.act ≠ .accept ∧ s.cph = .b ∧ ∃ t, exec .cap s = .next t ∧ t.busy = true) ∧
    (let s := { running 0xD000 .send with cph := .d, oq := [0x00, 0x0A] }
     s.Busy ∧ s.act ≠ .accept ∧ s.cph = .d ∧ ∃ t, exec .emf s = .next t ∧ t.busy = true) ∧
    (let s := { running 0xD000 .delay with cph := .e, dc := 2 }
     s.Busy ∧ s.act ≠ .accept ∧ s.cph = .e ∧ ∃ t, exec .dly s = .next t ∧ t.busy = true) :=
  ⟨⟨by decide, by decide, rfl, _, rfl, by decide⟩, ⟨by decide, by decide, rfl, _, rfl, by decide⟩,
    by decide, by decide, rfl, _, rfl, by decide⟩

/-- The ticks between the steps: the end of a capture on written entries, and a frame's last byte. -/
theorem witness_CyclesRunTheirStepsAndRepeat_turns :
    (let s := { running 0xD000 .data with cph := .b, kph := .pass1, bi := 15, dataAns := [true] }
     s.Busy ∧ s.act ≠ .accept ∧ s.cph = .b ∧ ∃ t, exec .cap s = .next t ∧ t.busy = false ∧ t.flt = false ∧
       ∀ j, j < (if t.fl then 32 else 16) → t.written j = true) ∧
    (let s := { running 0xD000 .send with cph := .d, oq := [0x0A] }
     s.Busy ∧ s.act ≠ .accept ∧ s.cph = .d ∧ 0 < s.params.interCycleTicks ∧
       ∃ t, exec .emf s = .next t ∧ t.busy = false) :=
  ⟨⟨by decide, by decide, rfl, _, rfl, by decide, by decide, by decide⟩,
    by decide, by decide, rfl, by decide, _, rfl, by decide⟩

/-- The end of step (e), with a delay and with none; and a tick of RUN that is no such end. -/
theorem witness_CyclesRunTheirStepsAndRepeat_ends :
    (let s := { running 0xD000 .delay with cph := .e, dc := 1 }
     s.Busy ∧ s.cph = .e ∧ s.act = .delay ∧ s.dc = 1) ∧
    (let s := { running 0xD000 .send with
       cph := .d, oq := [0x0A], params := { platform with interCycleTicks := 0 } }
     s.Busy ∧ s.cph = .d ∧ s.act = .send ∧ s.oq = [0x0A] ∧ s.params.interCycleTicks = 0) ∧
    (let s := { running 0xE000 .clock with cph := .b }
     s.Busy ∧ ¬ (s.cph = .e ∧ s.act = .delay ∧ s.dc ≤ 1) ∧
       ¬ (s.cph = .d ∧ s.act = .send ∧ s.oq.length = 1 ∧ s.params.interCycleTicks = 0)) := by decide

theorem witness_RunNeverCompletes : ∃ t, exec .run fresh = .next t ∧ t.flt = false := ⟨_, rfl, by decide⟩

theorem witness_CapturesAndCyclesChangeNothingElse :
    ∀ i ∈ [Instr.cap, .cycle, .run], ∃ t, exec i filled = .next t ∧ t.flt = false := by
  intro i h
  simp only [List.mem_cons, List.not_mem_nil, or_false] at h
  rcases h with rfl | rfl | rfl <;> exact ⟨_, rfl, by decide⟩

/-- A host about to write CYCLE on a platform, with CFG and a device given. -/
def cycling (p : Params) (strat framer : Bool) (latch clock data : List Bool) : State :=
  { writing 0xD000 with
    params := p, strat := strat, framer := framer, latchAns := latch, clockAns := clock, dataAns := data }

/-- The source's end-to-end scenario (L1.5, P2): standard, compact, extended. -/
theorem witness_CycleSendsTheCapturedFrame_extended :
    let d := (List.replicate 8 [false, true]).flatten ++ List.replicate 16 true
    let ws := List.replicate 32 (0, 0)
    let s := cycling platform false false [true, false] (List.replicate 32 [true, false]).flatten d
    s.Idle ∧ 1 ≤ s.params.spinTicks ∧ s.hostq = [cmdWriteEntry 0xD000] ∧
      (!d.getD 15 true || d.getD 13 true) = true ∧ s.params.relatchOnExt = false ∧ d.length = 32 ∧
      ws.length = (if s.strat then 0 else d.length) ∧ s.latchAns = edgeAnswers (0, 0) ++ [] ++ [] ∧
      s.clockAns = ws.flatMap edgeAnswers ++ [] ∧ s.dataAns = d ++ [] := by decide

/-- P1's levels: standard, compact, base. -/
theorem witness_CycleSendsTheCapturedFrame_base :
    let d := List.replicate 13 true ++ [false, true, true]
    let ws := List.replicate 16 (0, 0)
    let s := cycling platform false false [true, false] (List.replicate 16 [true, false]).flatten d
    s.Idle ∧ 1 ≤ s.params.spinTicks ∧ s.hostq = [cmdWriteEntry 0xD000] ∧
      (!d.getD 15 true || d.getD 13 true) = false ∧ d.length = 16 ∧
      ws.length = (if s.strat then 0 else d.length) ∧ s.latchAns = edgeAnswers (0, 0) ++ [] ++ [] ∧
      s.clockAns = ws.flatMap edgeAnswers ++ [] ∧ s.dataAns = d ++ [] := by decide

/-- P3: legacy, debug, base; CLOCK gives no answer. -/
theorem witness_CycleSendsTheCapturedFrame_legacy :
    let d := [false, false] ++ List.replicate 11 true ++ [false, true, true]
    let s := cycling { platform with spinTicks := 2 } true true [true, false] [] d
    s.Idle ∧ 1 ≤ s.params.spinTicks ∧ s.hostq = [cmdWriteEntry 0xD000] ∧
      (!d.getD 15 true || d.getD 13 true) = false ∧ d.length = 16 ∧
      ([] : List (Nat × Nat)).length = (if s.strat then 0 else d.length) ∧
      s.latchAns = edgeAnswers (0, 0) ++ [] ++ [] ∧ s.clockAns = [] ++ [] ∧ s.dataAns = d ++ [] := by decide

/-- V-CAP-3's and V-CAP-4's levels: a second LATCH edge with RELATCH_ON_EXT, here in the legacy strategy; and none without. -/
theorem witness_CycleSendsTheCapturedFrame_relatched :
    let d := List.replicate 32 false
    (let s := cycling { platform with relatchOnExt := true } true false [true, false, true, false] [] d
     s.Idle ∧ 1 ≤ s.params.spinTicks ∧ s.hostq = [cmdWriteEntry 0xD000] ∧
       ((!d.getD 15 true || d.getD 13 true) && s.params.relatchOnExt) = true ∧ d.length = 32 ∧
       ([] : List (Nat × Nat)).length = (if s.strat then 0 else d.length) ∧
       s.latchAns = edgeAnswers (0, 0) ++ edgeAnswers (0, 0) ++ [] ∧ s.clockAns = [] ++ [] ∧ s.dataAns = d ++ []) ∧
    (let s := cycling platform true false [true, false] [] d
     s.Idle ∧ 1 ≤ s.params.spinTicks ∧ s.hostq = [cmdWriteEntry 0xD000] ∧
       ((!d.getD 15 true || d.getD 13 true) && s.params.relatchOnExt) = false ∧ d.length = 32 ∧
       ([] : List (Nat × Nat)).length = (if s.strat then 0 else d.length) ∧
       s.latchAns = edgeAnswers (0, 0) ++ [] ++ [] ∧ s.clockAns = [] ++ [] ∧ s.dataAns = d ++ []) := by decide

/-- A CAP, CYCLE or RUN in its acceptance tick meets the invariant. -/
theorem accepting_inv (cur : CmdWord) (i : Instr) (h : decodeWord cur = some i) (hr : i.WellFormed) :
    (running cur .accept).Inv :=
  ⟨(by decide : platform.Admissible), ⟨by simp [running, filled, fresh, State.resetOn], by simp [running, filled, fresh, State.resetOn],
    by simp [running, filled, fresh, State.resetOn]⟩,
    by simp [State.CountersInRange, running, filled, fresh, State.resetOn],
    by simp [running, filled, fresh, State.resetOn], by simp [running], fun _ => ⟨i, h, hr, .inl rfl⟩⟩

theorem witness_CapturesAndCyclesNeverFault :
    ∀ cur ∈ [0xB000#16, 0xD000#16, 0xE000#16],
      (running cur .accept).Inv ∧ (running cur .accept).Busy ∧ (running cur .accept).HostQuiet := by
  intro cur h
  simp only [List.mem_cons, List.not_mem_nil, or_false] at h
  rcases h with rfl | rfl | rfl
  · exact ⟨accepting_inv _ .cap (by decide) rfl, by decide, by decide⟩
  · exact ⟨accepting_inv _ .cycle (by decide) rfl, by decide, by decide⟩
  · exact ⟨accepting_inv _ .run (by decide) rfl, by decide, by decide⟩

/-- A CYCLE that observes and goes on, and a RUN that sends a byte and goes on to the next. -/
theorem witness_InterruptsSuspendedExactlyWhileSampling :
    (let s := { running 0xD000 .latch with is := true, cph := .b, ews := .pre, latchAns := [true] }
     s.Inv ∧ s.Busy ∧ s.HostQuiet ∧ s.cur ∈ [0xD000#16, 0xE000#16] ∧
       ∃ t, step s = .next t ∧ ¬ SameDevice s t ∧ t.busy = true ∧ t.act ∈ [Action.latch, .clock, .data, .spin]) ∧
    (let s := { running 0xE000 .send with is := false, cph := .d, oq := [0x00, 0x0A] }
     s.Inv ∧ s.Busy ∧ s.HostQuiet ∧ s.cur ∈ [0xD000#16, 0xE000#16] ∧
       ∃ t, step s = .next t ∧ t.tx ≠ none ∧ t.busy = true ∧ t.act ∈ [Action.send, .delay]) := by
  refine ⟨⟨⟨by decide, ⟨by decide, by decide, by decide⟩, ⟨by decide, by decide, by decide⟩, by decide,
    by decide, ?_⟩, by decide, by decide, by decide, _, rfl, by decide, by decide, by decide⟩,
    ⟨⟨by decide, ⟨by decide, by decide, by decide⟩, ⟨by decide, by decide, by decide⟩, by decide,
    by decide, ?_⟩, by decide, by decide, by decide, _, rfl, by decide, by decide, by decide⟩⟩
  · refine fun _ => ⟨.cycle, by decide, rfl, .inr ⟨rfl, rfl, by decide, ?_, rfl, rfl⟩⟩
    intro j h
    exact absurd h (Nat.not_lt_zero j)
  · exact fun _ => ⟨.run, by decide, rfl, .inr ⟨rfl, rfl, rfl, by decide⟩⟩

theorem witness_ResetMeetsTheInvariant : platform.Admissible := by decide

theorem witness_StepKeepsTheInvariant :
    filled.Inv ∧ (∃ t, step filled = .next t) ∧
    (running 0xB000 .accept).Inv ∧ (∃ t, step (running 0xB000 .accept) = .next t) :=
  ⟨filled_inv, ⟨_, rfl⟩, accepting_inv _ .cap (by decide) rfl, _, rfl⟩

theorem witness_StepStopsOnlyOnForeignAccesses : filled.Inv := filled_inv

end Sys2Proof.Tests
end

/-! ### A command's word reads back -/

namespace Sys2Proof

/-- The operand fields of a word whose operand bits are those of a sampling command (R64). -/
theorem samplingFields_of_toNat {cw : CmdWord} {l p : Bool} {idx nm1 : BitVec 5} {op : Nat}
    (h : cw.toNat = op * 4096 + (BitVec.ofBool l ++ BitVec.ofBool p ++ idx ++ nm1 : BitVec 12).toNat) :
    cw[11] = l ∧ cw[10] = p ∧ cw.extractLsb' 5 5 = idx ∧ cw.extractLsb' 0 5 = nm1 := by
  rw [samplingBits_toNat] at h
  have hi := idx.isLt
  have hn := nm1.isLt
  have hple : p.toNat ≤ 1 := Bool.toNat_le p
  have hlle : l.toNat ≤ 1 := Bool.toNat_le l
  refine ⟨?_, ?_, cwExtract_eq _ _ _ (by omega), cwExtract_eq _ _ _ (by omega)⟩
  · rw [← BitVec.getLsbD_eq_getElem, cwBit_toNat, show cw.toNat / 2 ^ 11 % 2 = l.toNat by omega]
    cases l <;> rfl
  · rw [← BitVec.getLsbD_eq_getElem, cwBit_toNat, show cw.toNat / 2 ^ 10 % 2 = p.toNat by omega]
    cases p <;> rfl

/-- The operand fields of a word whose operand bits are those of a framing command (R65). -/
theorem framingFields_of_toNat {cw : CmdWord} {start : BitVec 5} {count : BitVec 6} {op : Nat}
    (h : cw.toNat = op * 4096 + (0#1 ++ count ++ start : BitVec 12).toNat) :
    cw[11] = false ∧ cw.extractLsb' 0 5 = start ∧ cw.extractLsb' 5 6 = count := by
  rw [framingBits_toNat] at h
  have hs := start.isLt
  have hc := count.isLt
  refine ⟨?_, cwExtract_eq _ _ _ (by omega), cwExtract_eq _ _ _ (by omega)⟩
  rw [← BitVec.getLsbD_eq_getElem, cwBit_toNat, decide_eq_false_iff_not]
  omega

/-- Every command is read back from its word (R61 to R67). -/
theorem decodeWord_encode (i : Instr) : decodeWord (encode i) = some i := by
  have hop : cwField (encode i) 12 4 = (opcodeOf i).toNat := Laws.OpcodeField.of_encode i
  have hw := encode_toNat i
  cases i with
  | smps l idx nm1 =>
    obtain ⟨h11, h10, hidx, hnm1⟩ := samplingFields_of_toNat (p := false) hw
    simp [decodeWord, hop, opcodeOf, decodeSmps, h11, h10, hidx, hnm1]
  | smpl l p idx nm1 =>
    obtain ⟨h11, h10, hidx, hnm1⟩ := samplingFields_of_toNat hw
    simp [decodeWord, hop, opcodeOf, decodeSmpl, h11, h10, hidx, hnm1]
  | emc start count =>
    obtain ⟨h11, hstart, hcount⟩ := framingFields_of_toNat hw
    simp [decodeWord, hop, opcodeOf, decodeF, h11, hstart, hcount]
  | emd start count =>
    obtain ⟨h11, hstart, hcount⟩ := framingFields_of_toNat hw
    simp [decodeWord, hop, opcodeOf, decodeF, h11, hstart, hcount]
  | wfe line | wre line => cases line <;> decide
  | nop | det | irqoff | irqon | dly | cap | emf | cycle | run => decide

end Sys2Proof

namespace Sys2Proof.Machine

/-! ### Observation and reset -/

/-- The answers put on a line are the answers to come on it. -/
theorem answers_withAnswers_same (s : State) (line : Line) (l : List Bool) :
    (s.withAnswers line l).answers line = l := by
  cases line <;> rfl

/-- The answers put on a line leave the other lines' answers as they are. -/
theorem answers_withAnswers_of_ne (s : State) {line other : Line} (h : other ≠ line) (l : List Bool) :
    (s.withAnswers line l).answers other = s.answers other := by
  cases line <;> cases other <;> simp [State.withAnswers, State.answers] at h ⊢

/-- Settles O24: a scripted answer is the level read, and using it up rewrites its line's list alone. -/
theorem observationUsesUpOneAnswer : Obligations.ObservationUsesUpOneAnswer := by
  intro s line v rest h
  rw [observed_of_answers h, afterObs_of_answers h]
  refine ⟨rfl, answers_withAnswers_same s line rest, fun _ hne => answers_withAnswers_of_ne s hne rest, ?_⟩
  cases line <;> exact ⟨rfl, rfl⟩

/-- The state after reset meets the invariant on every platform R7 admits (R28). -/
theorem resetOn_inv {p : Params} (hp : p.Admissible) : (State.resetOn p).Inv where
  admissible := hp
  faultFields := ⟨nofun, fun _ => ⟨rfl, rfl⟩, by simp [State.resetOn]⟩
  counters := ⟨by simp [State.resetOn], by simp [State.resetOn], by simp [State.resetOn]⟩
  port := nofun
  idle := fun _ => rfl
  placed := fun (hrun : p.autorun = true) => ⟨.run, by simp [State.resetOn, hrun]; decide, rfl, .inl rfl⟩

/-- The model's own platform is one R7 admits. -/
theorem platform_admissible : Config.platform.Admissible := by
  have h := Config.printableOffset.isLt
  have hm : Config.platform.oneMarker.toNat = 0x20 + Config.printableOffset.val := by
    simp only [Config.platform, Config.oneMarker, BitVec.toNat_ofNat]
    omega
  refine ⟨?_, ?_, Nat.le_add_left 1 _⟩ <;> omega

/-- Settles O58: reset sets no fault field, counter or port, and a RUN that starts is in its acceptance tick. -/
theorem resetMeetsTheInvariant : Obligations.ResetMeetsTheInvariant :=
  ⟨fun _ hp => resetOn_inv hp, resetOn_inv platform_admissible⟩

/-! ### A block that is not halted, apart from its place -/

/-- What the invariant asks of a block that is not halted, apart from BUSY, CUR and the place in the command. It speaks
of no buffer, flag, configuration, device or host, so for a state that differs in those alone it unfolds to the same
statement and the same proof serves. -/
def State.Sound (s : State) : Prop :=
  s.params.Admissible ∧ (s.flt = false ∧ s.fcode = .none ∧ s.finfo = 0) ∧ s.CountersInRange ∧
  ∀ b, s.tx = some b → s.out.getLast? = some b

/-- A sound block in a command i in range, wherever in it. -/
def State.Runs (s : State) (i : Instr) : Prop :=
  s.Sound ∧ s.busy = true ∧ decodeWord s.cur = some i ∧ i.WellFormed

theorem State.Runs.sound {s : State} {i : Instr} (h : s.Runs i) : s.Sound := h.1

theorem State.Runs.wellFormed {s : State} {i : Instr} (h : s.Runs i) : i.WellFormed := by
  obtain ⟨-, -, -, hwf⟩ := h
  exact hwf

theorem State.Inv.sound {s : State} (h : s.Inv) (hf : s.flt = false) : s.Sound := by
  obtain ⟨-, hclear, -⟩ := h.faultFields
  exact ⟨h.admissible, ⟨hf, hclear hf⟩, h.counters, h.port⟩

/-- A busy state of the invariant runs the command CUR holds and is at a place in it. -/
theorem State.Inv.runs {s : State} {i : Instr} (h : s.Inv) (hb : s.Busy) (hd : decodeWord s.cur = some i) :
    s.Runs i ∧ (s.act = .accept ∨ s.At i) := by
  obtain ⟨j, hj, hwf, hplace⟩ := h.placed hb.2
  obtain rfl : j = i := Option.some.inj (hj.symm.trans hd)
  exact ⟨⟨h.sound hb.1, hb.2, hd, hwf⟩, hplace⟩

/-- A sound block meets the invariant if BUSY and its next action agree. -/
theorem State.Sound.inv {s : State} (h : s.Sound) (hidle : s.busy = false → s.act = .accept)
    (hplaced : s.busy = true → s.Placed) : s.Inv := by
  obtain ⟨hadm, ⟨hflt, hcode, hinfo⟩, hcnt, hport⟩ := h
  exact {
    admissible := hadm
    faultFields := ⟨by simp [hflt], fun _ => ⟨hcode, hinfo⟩, by simp [hinfo]⟩
    counters := hcnt
    port := hport
    idle := hidle
    placed := hplaced }

/-- A running command at a place in it meets the invariant. -/
theorem State.Runs.inv {s : State} {i : Instr} (h : s.Runs i) (hp : s.act = .accept ∨ s.At i) : s.Inv := by
  obtain ⟨hs, hbusy, hdec, hwf⟩ := h
  exact hs.inv (by simp [hbusy]) fun _ => ⟨i, hdec, hwf, hp⟩

/-- Acceptance of a command in range puts a sound block in it (R58). -/
theorem State.Sound.accept {s : State} {i : Instr} (h : s.Sound) (hr : i.WellFormed) : (accept i s).Runs i :=
  ⟨h, rfl, decodeWord_encode i, hr⟩

/-- A command that completes meets the invariant (R22). -/
theorem State.Runs.complete_inv {s : State} {i : Instr} (h : s.Runs i) : (complete s).Inv :=
  State.Sound.inv (s := complete s) h.sound (fun _ => rfl) nofun

/-- Fault entry meets the invariant (R118). -/
theorem State.Sound.raiseFault_inv {s : State} {code : FaultCode} {info : BusWord} (h : s.Sound)
    (hc : code ≠ .none) (hi : info.toNat < 2 ^ 21) : (raiseFault code info s).Inv := by
  obtain ⟨hadm, -, hcnt, hport⟩ := h
  exact {
    admissible := hadm
    faultFields := ⟨fun _ => ⟨rfl, rfl, hc⟩, nofun, hi⟩
    counters := hcnt
    port := hport
    idle := fun _ => rfl
    placed := nofun }

/-- FINFO of a rejected write fits its field (R114). -/
theorem zext32_lt (cw : CmdWord) : (zext32 cw).toNat < 2 ^ 21 := by
  have h := cw.isLt
  simp only [zext32, BitVec.toNat_setWidth]
  omega

/-- FINFO of UNWRITTEN_READ fits its field (R114). -/
theorem unwrittenInfo_lt (i : Nat) (cur : CmdWord) : (unwrittenInfo i cur).toNat < 2 ^ 21 := by
  have hc := cur.isLt
  have hi := (BitVec.ofNat 5 i).isLt
  simp only [unwrittenInfo, BitVec.toNat_append]
  rw [← Nat.shiftLeft_add_eq_or_of_lt hc, ← Nat.shiftLeft_add_eq_or_of_lt hi]
  simp only [Nat.shiftLeft_eq, BitVec.toNat_ofNat] at hi ⊢
  omega

theorem State.Sound.unwrittenRead_inv {s : State} (h : s.Sound) (i : Nat) :
    (raiseFault .unwrittenRead (unwrittenInfo i s.cur) s).Inv :=
  h.raiseFault_inv (by decide) (unwrittenInfo_lt i s.cur)

theorem State.Runs.sc_le {s : State} {i : Instr} (h : s.Runs i) : s.sc ≤ 2 * s.params.spinTicks := by
  obtain ⟨⟨-, -, ⟨-, hsc, -⟩, -⟩, -⟩ := h
  exact hsc

theorem State.Runs.dc_le {s : State} {i : Instr} (h : s.Runs i) : s.dc ≤ s.params.interCycleTicks := by
  obtain ⟨⟨-, -, ⟨-, -, hdc⟩, -⟩, -⟩ := h
  exact hdc

theorem State.Runs.withBi {s : State} {i : Instr} (h : s.Runs i) {n : Nat} (hn : n ≤ 32) :
    ({ s with bi := n } : State).Runs i := by
  obtain ⟨⟨hadm, hunf, ⟨-, hsc, hdc⟩, hport⟩, hrun⟩ := h
  exact ⟨⟨hadm, hunf, ⟨hn, hsc, hdc⟩, hport⟩, hrun⟩

theorem State.Runs.withSc {s : State} {i : Instr} (h : s.Runs i) {n : Nat} (hn : n ≤ 2 * s.params.spinTicks) :
    ({ s with sc := n } : State).Runs i := by
  obtain ⟨⟨hadm, hunf, ⟨hbi, -, hdc⟩, hport⟩, hrun⟩ := h
  exact ⟨⟨hadm, hunf, ⟨hbi, hn, hdc⟩, hport⟩, hrun⟩

theorem State.Runs.withDc {s : State} {i : Instr} (h : s.Runs i) {n : Nat} (hn : n ≤ s.params.interCycleTicks) :
    ({ s with dc := n } : State).Runs i := by
  obtain ⟨⟨hadm, hunf, ⟨hbi, hsc, -⟩, hport⟩, hrun⟩ := h
  exact ⟨⟨hadm, hunf, ⟨hbi, hsc, hn⟩, hport⟩, hrun⟩

/-- A byte sent is the last byte of OUT (R27). -/
theorem State.Runs.transmit {s : State} {i : Instr} (h : s.Runs i) (b : Byte) : (s.transmit b).Runs i := by
  obtain ⟨⟨hadm, hunf, hcnt, -⟩, hrun⟩ := h
  exact ⟨⟨hadm, hunf, hcnt, fun c hc => by simp_all [State.transmit]⟩, hrun⟩

/-! ### Observations and stored bits -/

/-- An observation of a wait touches the device and EWS alone. -/
theorem edgeStep_eq (s : State) (e : Edge) (line : Line) :
    ∃ l c d n, s.edgeStep e line = { s with
      latchAns := l, clockAns := c, dataAns := d, draws := n, ews := nextEws e s.ews (s.observed line) } := by
  obtain ⟨l, c, d, n, h⟩ := afterObs_eq s line
  exact ⟨l, c, d, n, by rw [State.edgeStep, h]⟩

/-- The observation that ends a wait leaves EWS at PRE (R73). -/
theorem edgeStep_ews_of_edgeEnds {s : State} {e : Edge} {line : Line} (h : s.edgeEnds e line = true) :
    (s.edgeStep e line).ews = .pre := by
  simp only [State.edgeEnds, Bool.and_eq_true, decide_eq_true_eq] at h
  simp [nextEws, h.1, h.2]

theorem State.Runs.edgeStep {s : State} {i : Instr} (h : s.Runs i) (e : Edge) (line : Line) :
    (s.edgeStep e line).Runs i := by
  obtain ⟨_, _, _, _, heq⟩ := edgeStep_eq s e line
  rw [heq]; exact h

/-- Entry j is written after a write of entry i if it was before or is the one (R17). -/
theorem written_bufWrite (s : State) {i : Nat} (hi : i < 32) (v : Bool) (j : Nat) :
    (s.bufWrite i v).written j = true ↔ j = i ∨ s.written j = true := by
  by_cases h : j = i <;> simp [State.written, getLsbD_setBit, h, hi]

/-- The state after a stored bit: the device, the entry and BI. -/
theorem storeBit_eq (p : Pass) (s : State) :
    ∃ l c d n, storeBit p s = { s.bufWrite (p.idx + s.bi) (!s.observed .data) with
      latchAns := l, clockAns := c, dataAns := d, draws := n, bi := s.bi + 1 } := by
  obtain ⟨l, c, d, n, h⟩ := afterObs_eq s .data
  exact ⟨l, c, d, n, by rw [storeBit, h]; rfl⟩

theorem written_storeBit {p : Pass} {s : State} (hfit : p.idx + s.bi < 32) (j : Nat) :
    (storeBit p s).written j = true ↔ j = p.idx + s.bi ∨ s.written j = true := by
  obtain ⟨_, _, _, _, h⟩ := storeBit_eq p s
  rw [h]; exact written_bufWrite s hfit (!s.observed .data) j

theorem State.Runs.storeBit {p : Pass} {s : State} {i : Instr} (h : s.Runs i) (hn : s.bi + 1 ≤ 32) :
    (storeBit p s).Runs i := by
  obtain ⟨_, _, _, _, heq⟩ := storeBit_eq p s
  rw [heq]; exact h.withBi hn

/-! ### What a pass leaves alone of the capture and the cycle around it -/

/-- Setting, FL, EXT, IS and the steps of cycle and capture are untouched, and no entry is unwritten again. -/
def SameAround (s t : State) : Prop :=
  SameSetting s t ∧ SameLength s t ∧ t.is = s.is ∧ t.cph = s.cph ∧ t.kph = s.kph ∧
  ∀ j, s.written j = true → t.written j = true

theorem SameAround.refl (s : State) : SameAround s s :=
  ⟨⟨rfl, rfl, rfl, rfl, rfl, rfl, rfl⟩, ⟨rfl, rfl⟩, rfl, rfl, rfl, fun _ h => h⟩

theorem SameAround.trans {s t u : State} (h : SameAround s t) (g : SameAround t u) : SameAround s u := by
  obtain ⟨⟨hp, hst, hf, hl, hr, hb, hq⟩, ⟨hfl, hext⟩, his, hc, hk, hw⟩ := h
  obtain ⟨⟨gp, gst, gf, gl, gr, gb, gq⟩, ⟨gfl, gext⟩, gis, gc, gk, gw⟩ := g
  exact ⟨⟨gp.trans hp, gst.trans hst, gf.trans hf, gl.trans hl, gr.trans hr, gb.trans hb, gq.trans hq⟩,
    ⟨gfl.trans hfl, gext.trans hext⟩, gis.trans his, gc.trans hc, gk.trans hk, fun j h => gw j (hw j h)⟩

theorem sameAround_edgeStep (s : State) (e : Edge) (line : Line) : SameAround s (s.edgeStep e line) := by
  obtain ⟨_, _, _, _, h⟩ := edgeStep_eq s e line
  rw [h]; exact SameAround.refl s

theorem sameAround_afterLatch (p : Pass) (s : State) : SameAround s (afterLatch p s) := by
  obtain ⟨_, _, h⟩ := afterLatch_eq p s
  rw [h]; exact SameAround.refl s

theorem sameAround_startPass (p : Pass) (s : State) : SameAround s (startPass p s) := by
  obtain ⟨_, _, h⟩ := startPass_eq p s
  rw [h]; exact SameAround.refl s

theorem sameAround_nextBit (p : Pass) (s : State) : SameAround s (nextBit p s) := by
  obtain ⟨_, _, h⟩ := nextBit_eq p s
  rw [h]; exact SameAround.refl s

theorem sameAround_storeBit {p : Pass} {s : State} (hfit : p.idx + s.bi < 32) : SameAround s (storeBit p s) := by
  obtain ⟨hset, hlen, his, hc, hk, -⟩ := SameAround.refl s
  obtain ⟨_, _, _, _, h⟩ := storeBit_eq p s
  refine ⟨?_, ?_, ?_, ?_, ?_, fun j hj => (written_storeBit hfit j).mpr (.inr hj)⟩ <;> rw [h]
  exacts [hset, hlen, his, hc, hk]

/-! ### Places in a pass -/

/-- The bits before BI are written, and BI is a bit of the pass. -/
def State.BitsStored (s : State) (p : Pass) : Prop :=
  s.bi < p.n ∧ ∀ j, j < s.bi → s.written (p.idx + j) = true

theorem inPass_latch {s : State} {p : Pass} (ha : s.act = .latch) :
    s.InPass p ↔ s.BitsStored p ∧ p.latchFirst = true ∧ s.bi = 0 := by
  simp [State.InPass, State.BitsStored, ha, and_assoc]

theorem inPass_clock {s : State} {p : Pass} (ha : s.act = .clock) :
    s.InPass p ↔ s.BitsStored p ∧ p.legacy = false := by
  simp [State.InPass, State.BitsStored, ha, and_assoc]

theorem inPass_data {s : State} {p : Pass} (ha : s.act = .data) :
    s.InPass p ↔ s.BitsStored p ∧ s.ews = .pre := by
  simp [State.InPass, State.BitsStored, ha, and_assoc]

theorem inPass_spin {s : State} {p : Pass} (ha : s.act = .spin) :
    s.InPass p ↔ s.BitsStored p ∧ p.legacy = true ∧ s.ews = .pre ∧ 0 < s.sc := by
  simp [State.InPass, State.BitsStored, ha, and_assoc]

theorem spinLength_le (s : State) : s.spinLength ≤ 2 * s.params.spinTicks := by
  unfold State.spinLength
  split <;> omega

theorem State.Runs.startSpin {s : State} {i : Instr} (h : s.Runs i) : (startSpin s).Runs i :=
  h.withSc (spinLength_le s)

theorem State.Runs.afterLatch {s : State} {i : Instr} (h : s.Runs i) (p : Pass) : (afterLatch p s).Runs i := by
  unfold Machine.afterLatch
  split
  · split
    · exact h.startSpin
    · exact h
  · exact h

theorem State.Runs.startPass {s : State} {i : Instr} (h : s.Runs i) (p : Pass) : (startPass p s).Runs i := by
  have h0 : ({ s with bi := 0, ews := .pre } : State).Runs i := h.withBi (Nat.zero_le 32)
  unfold Machine.startPass
  split
  · exact h0
  · exact h0.afterLatch p

theorem State.Runs.nextBit {s : State} {i : Instr} (h : s.Runs i) (p : Pass) : (nextBit p s).Runs i := by
  unfold Machine.nextBit
  split
  · exact h.startSpin
  · exact h

/-- A spin begins at its first tick, or at DATA if it has none (R81). -/
theorem startSpin_inPass {s : State} {p : Pass} (hl : p.legacy = true) (hb : s.BitsStored p) (he : s.ews = .pre) :
    (startSpin s).InPass p := by
  by_cases h : s.spinLength = 0
  · exact (inPass_data (by simp [startSpin, h])).mpr ⟨hb, he⟩
  · exact (inPass_spin (by simp [startSpin, h])).mpr ⟨hb, hl, he, Nat.pos_of_ne_zero h⟩

theorem afterLatch_inPass {s : State} {p : Pass} (hb : s.BitsStored p) (he : s.ews = .pre) :
    (afterLatch p s).InPass p := by
  unfold afterLatch
  split
  · next hl =>
    split
    · exact startSpin_inPass hl hb he
    · exact (inPass_data rfl).mpr ⟨hb, he⟩
  · next hl => exact (inPass_clock rfl).mpr ⟨hb, by simpa using hl⟩

/-- A pass of at least one bit starts at a place in it (R78, R81). -/
theorem startPass_inPass {p : Pass} (hn : 0 < p.n) (s : State) : (startPass p s).InPass p := by
  have hb : ({ s with bi := 0, ews := .pre } : State).BitsStored p := ⟨hn, fun j hj => absurd hj (Nat.not_lt_zero j)⟩
  unfold startPass
  split
  · next hl => exact (inPass_latch rfl).mpr ⟨hb, hl, rfl⟩
  · exact afterLatch_inPass hb rfl

theorem nextBit_inPass {s : State} {p : Pass} (hb : s.BitsStored p) (he : s.ews = .pre) : (nextBit p s).InPass p := by
  unfold nextBit
  split
  · next hl => exact startSpin_inPass hl hb he
  · next hl => exact (inPass_clock rfl).mpr ⟨hb, by simpa using hl⟩

/-- An observation of a wait leaves the stored bits as they are. -/
theorem State.BitsStored.edgeStep {s : State} {p : Pass} (h : s.BitsStored p) (e : Edge) (line : Line) :
    (s.edgeStep e line).BitsStored p := by
  obtain ⟨_, _, _, _, heq⟩ := edgeStep_eq s e line
  rw [heq]; exact h

/-- After a stored bit the bits up to and including it are written (R78). -/
theorem written_of_storeBit {s : State} {p : Pass} (hfit : p.idx + p.n ≤ 32) (hb : s.BitsStored p) {j : Nat}
    (hj : j < s.bi + 1) : (storeBit p s).written (p.idx + j) = true := by
  obtain ⟨hlt, hw⟩ := hb
  rw [written_storeBit (by omega)]
  rcases Nat.lt_succ_iff_lt_or_eq.mp hj with hj | rfl
  · exact .inr (hw j hj)
  · exact .inl rfl

/-- A tick of a pass ends at a place in the pass, or has stored the last bit and does what follows the pass. -/
theorem passTick_inPass {p : Pass} {k : State → State} {i : Instr} {s t : State} (hfit : p.idx + p.n ≤ 32)
    (hr : s.Runs i) (hp : s.InPass p) (h : passTick p k s = .next t) :
    (t.Runs i ∧ t.InPass p ∧ SameAround s t) ∨
    (∃ u, t = k u ∧ u.Runs i ∧ SameAround s u ∧ ∀ j, j < p.n → u.written (p.idx + j) = true) := by
  rcases passTick_cases h with ⟨ha, rfl⟩ | ⟨ha, rfl⟩ | ⟨ha, hmore, rfl⟩ | ⟨ha, hlast, rfl⟩ | ⟨ha, rfl⟩
  · obtain ⟨hb, hl, h0⟩ := (inPass_latch ha).mp hp
    have hsame := sameAround_edgeStep s .falling .latch
    left
    split
    · next hend =>
      exact ⟨(hr.edgeStep _ _).afterLatch p, afterLatch_inPass (hb.edgeStep _ _) (edgeStep_ews_of_edgeEnds hend),
        hsame.trans (sameAround_afterLatch p _)⟩
    · exact ⟨hr.edgeStep _ _, (inPass_latch (by simpa using ha)).mpr ⟨hb.edgeStep _ _, hl, by simpa using h0⟩, hsame⟩
  · obtain ⟨hb, hl⟩ := (inPass_clock ha).mp hp
    have hsame := sameAround_edgeStep s .falling .clock
    left
    split
    · next hend =>
      exact ⟨hr.edgeStep .falling .clock, (inPass_data rfl).mpr ⟨hb.edgeStep .falling .clock,
        edgeStep_ews_of_edgeEnds hend⟩, hsame⟩
    · exact ⟨hr.edgeStep _ _, (inPass_clock (by simpa using ha)).mpr ⟨hb.edgeStep _ _, hl⟩, hsame⟩
  · obtain ⟨hb, he⟩ := (inPass_data ha).mp hp
    have hb' : (storeBit p s).BitsStored p := ⟨hmore, fun j hj => written_of_storeBit hfit hb hj⟩
    exact .inl ⟨(hr.storeBit (by omega)).nextBit p, nextBit_inPass hb' (by simpa [storeBit] using he),
      (sameAround_storeBit (by omega)).trans (sameAround_nextBit p _)⟩
  · obtain ⟨hb, -⟩ := (inPass_data ha).mp hp
    have hlt : s.bi < p.n := hb.1
    exact .inr ⟨_, rfl, hr.storeBit (by omega), sameAround_storeBit (by omega),
      fun j hj => written_of_storeBit hfit hb (by omega)⟩
  · obtain ⟨hb, hl, he, hsc⟩ := (inPass_spin ha).mp hp
    have hle := hr.sc_le
    refine .inl ⟨hr.withSc (by omega), ?_, SameAround.refl s⟩
    by_cases hz : s.sc - 1 = 0
    · exact (inPass_data (by simp [hz])).mpr ⟨hb, he⟩
    · exact (inPass_spin (by simp [hz])).mpr ⟨hb, hl, he, Nat.pos_of_ne_zero hz⟩

/-! ### Places in a capture -/

theorem inCapture_pass1 {s : State} (hk : s.kph = .pass1) :
    s.InCapture ↔ s.fl = false ∧ s.InPass s.basePass := by
  simp [State.InCapture, hk]

theorem inCapture_pass2 {s : State} (hk : s.kph = .pass2) :
    s.InCapture ↔ s.fl = false ∧ s.ext = true ∧ (∀ j, j < 16 → s.written j = true) ∧ s.InPass s.extPass := by
  simp [State.InCapture, hk]

/-- The two passes of a capture have bits and stay inside the buffer (R103). -/
theorem basePass_fits (s : State) : 0 < s.basePass.n ∧ s.basePass.idx + s.basePass.n ≤ 32 := by
  simp [State.basePass, Config.baseLen]

theorem extPass_fits (s : State) : 0 < s.extPass.n ∧ s.extPass.idx + s.extPass.n ≤ 32 := by
  simp [State.extPass, Config.baseLen]

theorem SameAround.basePass_eq {s t : State} (h : SameAround s t) : t.basePass = s.basePass := by
  obtain ⟨⟨-, hstrat, -⟩, -⟩ := h
  simp [State.basePass, hstrat]

theorem SameAround.extPass_eq {s t : State} (h : SameAround s t) : t.extPass = s.extPass := by
  obtain ⟨⟨hparams, hstrat, -⟩, -⟩ := h
  simp [State.extPass, hparams, hstrat]

/-- A capture starts at a place in its base pass (R103). -/
theorem startCapture_inCapture (s : State) : (startCapture s).InCapture := by
  have hsame := sameAround_startPass s.basePass { s with fl := false, kph := .pass1 }
  have hpass := startPass_inPass (basePass_fits s).1 { s with fl := false, kph := .pass1 }
  have hbase := hsame.basePass_eq
  obtain ⟨-, ⟨hfl, -⟩, -, -, hk, -⟩ := hsame
  exact (inCapture_pass1 hk).mpr ⟨hfl, by rw [hbase]; exact hpass⟩

theorem State.Runs.startCapture {s : State} {i : Instr} (h : s.Runs i) : (startCapture s).Runs i :=
  State.Runs.startPass (s := { s with fl := false, kph := .pass1 }) h s.basePass

/-- FL agrees with EXT and the whole frame FL names is written: what a capture has done when it ends (R103, R107). -/
def State.FrameStored (s : State) : Prop :=
  s.fl = s.ext ∧ ∀ j ∈ s.frameEntries, s.written j = true

theorem mem_frameEntries {s : State} {j : Nat} : j ∈ s.frameEntries ↔ j < if s.fl then 32 else 16 := by
  simp [State.frameEntries, State.flen, Config.extLen, Config.baseLen]

/-- The end of the base pass turns to the extension pass, or ends the capture with a base frame stored (R103). -/
theorem afterBasePass_inCapture {k : State → State} {i : Instr} {s : State} (hr : s.Runs i) (hfl : s.fl = false)
    (hw : ∀ j, j < 16 → s.written j = true) :
    ((afterBasePass k s).Runs i ∧ (afterBasePass k s).InCapture ∧
      (afterBasePass k s).is = s.is ∧ (afterBasePass k s).cph = s.cph) ∨
    (∃ u, afterBasePass k s = k u ∧ u.Runs i ∧ u.FrameStored ∧ u.is = s.is ∧ u.cph = s.cph) := by
  have hmark : ∀ j ∈ markerEntries, ({ s with kph := .classify } : State).written j = true := by
    intro j hj
    refine hw j ?_
    simp only [markerEntries, Config.markT, Config.markM, List.mem_cons, List.not_mem_nil, or_false] at hj
    omega
  rw [afterBasePass, guardWritten_of_written hmark, classifyFrame]
  split
  · have hsame := sameAround_startPass s.extPass { s with ext := true, kph := .pass2 }
    have hpass := startPass_inPass (extPass_fits s).1 { s with ext := true, kph := .pass2 }
    have hext := hsame.extPass_eq
    have hruns := State.Runs.startPass (s := { s with ext := true, kph := .pass2 }) hr s.extPass
    obtain ⟨-, ⟨hfl', hext'⟩, his, hc, hk, hkeep⟩ := hsame
    exact .inl ⟨hruns, (inCapture_pass2 hk).mpr
      ⟨hfl'.trans hfl, hext', fun j hj => hkeep j (hw j hj), by rw [hext]; exact hpass⟩, his, hc⟩
  · refine .inr ⟨_, rfl, hr, ⟨hfl, fun j hj => hw j ?_⟩, rfl, rfl⟩
    simpa [mem_frameEntries, hfl] using hj

/-- A tick of a capture ends at a place in the capture, or has stored the frame and does what follows the capture. -/
theorem captureTick_inCapture {k : State → State} {i : Instr} {s t : State} (hr : s.Runs i) (hp : s.InCapture)
    (h : captureTick k s = .next t) :
    (t.Runs i ∧ t.InCapture ∧ t.is = s.is ∧ t.cph = s.cph) ∨
    (∃ u, t = k u ∧ u.Runs i ∧ u.FrameStored ∧ u.is = s.is ∧ u.cph = s.cph) := by
  rcases captureTick_cases h with ⟨hk, h⟩ | ⟨hk, h⟩
  · obtain ⟨hfl, hpass⟩ := (inCapture_pass1 hk).mp hp
    rcases passTick_inPass (basePass_fits s).2 hr hpass h with
      ⟨htr, htp, hsame⟩ | ⟨u, rfl, hur, hsame, hw⟩
    · have hbase := hsame.basePass_eq
      obtain ⟨-, ⟨hfl', -⟩, his, hc, hk', -⟩ := hsame
      exact .inl ⟨htr, (inCapture_pass1 (hk'.trans hk)).mpr ⟨hfl'.trans hfl, by rw [hbase]; exact htp⟩, his, hc⟩
    · obtain ⟨-, ⟨hfl', -⟩, his, hc, -⟩ := hsame
      have hw16 : ∀ j, j < 16 → u.written j = true := fun j hj => by simpa [State.basePass] using hw j hj
      rw [← his, ← hc]
      exact afterBasePass_inCapture hur (hfl'.trans hfl) hw16
  · obtain ⟨hfl, hext, hw16, hpass⟩ := (inCapture_pass2 hk).mp hp
    rcases passTick_inPass (extPass_fits s).2 hr hpass h with
      ⟨htr, htp, hsame⟩ | ⟨u, rfl, hur, hsame, hw⟩
    · have hpeq := hsame.extPass_eq
      obtain ⟨-, ⟨hfl', hext'⟩, his, hc, hk', hkeep⟩ := hsame
      exact .inl ⟨htr, (inCapture_pass2 (hk'.trans hk)).mpr
        ⟨hfl'.trans hfl, hext'.trans hext, fun j hj => hkeep j (hw16 j hj), by rw [hpeq]; exact htp⟩, his, hc⟩
    · obtain ⟨-, ⟨-, hext'⟩, his, hc, -, hkeep⟩ := hsame
      refine .inr ⟨{ u with fl := true }, rfl, hur, ⟨(hext'.trans hext).symm, fun j hj => ?_⟩, his, hc⟩
      have hj32 : j < 32 := mem_frameEntries.mp hj
      rcases Nat.lt_or_ge j 16 with hlt | hge
      · exact hkeep j (hw16 j hlt)
      · have := hw (j - 16) (show j - 16 < 16 by omega)
        rwa [show s.extPass.idx + (j - 16) = j from Nat.add_sub_cancel' hge] at this

/-! ### Ticks that keep the invariant -/

/-- Every tick of the command i from a place in it ends in a state of the invariant. -/
def TickKeepsInv (i : Instr) (f : State → Result) : Prop :=
  ∀ s t : State, s.Runs i → (s.act = .accept ∨ s.At i) → f s = .next t → t.Inv

/-- A command whose ticks keep the invariant keeps it on a halted and on an idle block too (R58, R119). -/
theorem command_inv {i : Instr} {f : State → Result} {s t : State} (hf : TickKeepsInv i f) (hs : s.Inv)
    (hcur : s.busy = true → decodeWord s.cur = some i) (h : command i f s = .next t) : t.Inv := by
  rcases command_cases h with ⟨-, rfl⟩ | ⟨hb, h⟩ | ⟨hidle, hwf, h⟩ | ⟨hidle, -, rfl⟩
  · exact hs
  · obtain ⟨hr, hp⟩ := hs.runs hb (hcur hb.2)
    exact hf s t hr hp h
  · exact hf _ t ((hs.sound hidle.1).accept hwf) (.inl rfl) h
  · exact (hs.sound hidle.1).raiseFault_inv (by decide) (zext32_lt _)

theorem singleTick_keepsInv {i : Instr} {k : State → State} (hk : ∀ s : State, s.Runs i → (complete (k s)).Inv) :
    TickKeepsInv i (singleTick k) := by
  intro s t hr _ h
  obtain ⟨-, rfl⟩ := singleTick_cases h
  exact hk s hr

/-- DET completes, with the classification recorded or in a fault (R86). -/
theorem complete_det_inv {i : Instr} {s : State} (hr : s.Runs i) :
    (complete (guardWritten markerEntries recordClass s)).Inv := by
  rcases guardWritten_cases markerEntries recordClass s with ⟨-, heq⟩ | ⟨j, -, -, -, heq⟩
  · rw [heq]
    exact State.Runs.complete_inv (s := recordClass s) (i := i) hr
  · rw [heq]
    exact hr.sound.unwrittenRead_inv j

/-- Every way a tick of a wait can end in a next state (R73, R75). -/
theorem waitTick_cases {e : Edge} {line : Line} {s t : State} (h : waitTick e line s = .next t) :
    (s.act = .accept ∧ t = { s with ews := .pre, act := .wait }) ∨
    (s.act = .wait ∧ t = if s.edgeEnds e line then complete (s.edgeStep e line) else s.edgeStep e line) := by
  unfold waitTick at h
  split at h <;> cases h
  · next ha => exact .inl ⟨ha, rfl⟩
  · next ha => exact .inr ⟨ha, rfl⟩

theorem waitTick_keepsInv {i : Instr} (e : Edge) (line : Line) (hAt : ∀ s : State, s.At i ↔ s.act = .wait) :
    TickKeepsInv i (waitTick e line) := by
  intro s t hr _ h
  rcases waitTick_cases h with ⟨-, rfl⟩ | ⟨ha, rfl⟩
  · exact State.Runs.inv (i := i) hr (.inr ((hAt _).mpr rfl))
  · split
    · exact (hr.edgeStep e line).complete_inv
    · exact (hr.edgeStep e line).inv (.inr ((hAt _).mpr (by simpa using ha)))

theorem sampleTick_keepsInv {i : Instr} {p : Pass} (hAt : ∀ s : State, s.At i ↔ s.InPass p) (hn : 0 < p.n)
    (hfit : i.WellFormed → p.idx + p.n ≤ 32) : TickKeepsInv i (sampleTick p) := by
  intro s t hr hp h
  rcases sampleTick_cases h with ⟨-, rfl⟩ | ⟨ha, h⟩
  · exact (hr.startPass p).inv (.inr ((hAt _).mpr (startPass_inPass hn s)))
  · have hpass := (hAt s).mp (hp.resolve_left ha)
    rcases passTick_inPass (hfit hr.wellFormed) hr hpass h with ⟨htr, htp, -⟩ | ⟨u, rfl, hur, -, -⟩
    · exact htr.inv (.inr ((hAt t).mpr htp))
    · exact hur.complete_inv

/-- A tick of an emission: the byte sent, what stays of the queue is a place in the command, and what follows the last
byte keeps the invariant. -/
theorem sendTick_inv {i : Instr} {k : State → State} {s t : State} (hr : s.Runs i)
    (hmore : ∀ b rest, rest ≠ [] → s.act = .send → (({ s with oq := rest } : State).transmit b).At i)
    (hlast : ∀ b, (({ s with oq := [] } : State).transmit b).Runs i →
      (k (({ s with oq := [] } : State).transmit b)).Inv)
    (h : sendTick k s = .next t) : t.Inv := by
  obtain ⟨ha, b, rest, -, ⟨-, rfl⟩ | ⟨hne, rfl⟩⟩ := sendTick_cases h
  · exact hlast b (State.Runs.transmit (s := { s with oq := [] }) hr b)
  · exact (State.Runs.transmit (s := { s with oq := rest }) hr b).inv (.inr (hmore b rest hne ha))

theorem emitTick_keepsInv {i : Instr} {c : State → List Nat} {f : State → List Byte}
    (hAt : ∀ s : State, s.At i ↔ s.InEmission) (hf : ∀ s, f s ≠ []) : TickKeepsInv i (emitTick c f) := by
  intro s t hr _ h
  rcases emitTick_cases h with ⟨-, rfl⟩ | ⟨-, h⟩
  · rcases guardWritten_cases (c s) (queueBytes f) s with ⟨-, heq⟩ | ⟨j, -, -, -, heq⟩
    · rw [heq]
      exact State.Runs.inv (s := queueBytes f s) (i := i) hr (.inr ((hAt _).mpr ⟨rfl, hf s⟩))
    · rw [heq]
      exact hr.sound.unwrittenRead_inv j
  · exact sendTick_inv hr (fun _ _ hne ha => (hAt _).mpr ⟨ha, hne⟩) (fun _ hu => hu.complete_inv) h

theorem compactBytes_ne_nil (s : State) (start count : Nat) : s.compactBytes start count ≠ [] := by
  simp [State.compactBytes]

theorem debugBytes_ne_nil (s : State) (start count : Nat) : s.debugBytes start count ≠ [] := by
  simp [State.debugBytes]

theorem frameBytes_ne_nil (s : State) : s.frameBytes ≠ [] := by
  unfold State.frameBytes
  split
  · exact debugBytes_ne_nil s 0 s.flen
  · exact compactBytes_ne_nil s 0 s.flen

/-- A delay begins: its ticks are a place in the command, and what follows it keeps the invariant. -/
theorem startDelay_inv {i : Instr} {k : State → State} {s : State} (hr : s.Runs i)
    (hmore : 0 < s.params.interCycleTicks → ({ s with dc := s.params.interCycleTicks, act := .delay } : State).At i)
    (hlast : ({ s with dc := 0 } : State).Runs i → (k { s with dc := 0 }).Inv) : (startDelay k s).Inv := by
  unfold startDelay
  split
  · exact hlast (hr.withDc (Nat.zero_le _))
  · next h =>
    have hrun : ({ s with dc := s.params.interCycleTicks, act := .delay } : State).Runs i :=
      hr.withDc (Nat.le_refl _)
    exact hrun.inv (.inr (hmore (Nat.pos_of_ne_zero h)))

theorem delayTick_inv {i : Instr} {k : State → State} {s t : State} (hr : s.Runs i)
    (hmore : s.act = .delay → 1 < s.dc → ({ s with dc := s.dc - 1 } : State).At i)
    (hlast : ({ s with dc := s.dc - 1 } : State).Runs i → (k { s with dc := s.dc - 1 }).Inv)
    (h : delayTick k s = .next t) : t.Inv := by
  have hrun : ({ s with dc := s.dc - 1 } : State).Runs i := hr.withDc (by have := hr.dc_le; omega)
  obtain ⟨ha, ⟨-, rfl⟩ | ⟨hdc, rfl⟩⟩ := delayTick_cases h
  · exact hlast hrun
  · exact hrun.inv (.inr (hmore ha hdc))

/-- Every way a tick of DLY can end in a next state (R102). -/
theorem dlyTick_cases {s t : State} (h : dlyTick s = .next t) :
    (s.act = .accept ∧ t = startDelay complete s) ∨ (s.act ≠ .accept ∧ delayTick complete s = .next t) := by
  unfold dlyTick at h
  split at h
  · next ha => cases h; exact .inl ⟨ha, rfl⟩
  · next ha => exact .inr ⟨ha, h⟩

theorem dlyTick_keepsInv : TickKeepsInv .dly dlyTick := by
  intro s t hr _ h
  rcases dlyTick_cases h with ⟨-, rfl⟩ | ⟨-, h⟩
  · exact startDelay_inv hr (fun hpos => ⟨rfl, hpos⟩) State.Runs.complete_inv
  · exact delayTick_inv hr (fun ha hdc => ⟨ha, Nat.sub_pos_of_lt hdc⟩) State.Runs.complete_inv h

/-- Every way a tick of CAP can end in a next state (R103). -/
theorem capTick_cases {s t : State} (h : capTick s = .next t) :
    (s.act = .accept ∧ t = startCapture s) ∨ (s.act ≠ .accept ∧ captureTick complete s = .next t) := by
  unfold capTick at h
  split at h
  · next ha => cases h; exact .inl ⟨ha, rfl⟩
  · next ha => exact .inr ⟨ha, h⟩

theorem capTick_keepsInv : TickKeepsInv .cap capTick := by
  intro s t hr hp h
  rcases capTick_cases h with ⟨-, rfl⟩ | ⟨ha, h⟩
  · exact hr.startCapture.inv (.inr (startCapture_inCapture s))
  · rcases captureTick_inCapture hr (hp.resolve_left ha) h with ⟨htr, htp, -, -⟩ | ⟨u, rfl, hur, -, -, -⟩
    · exact htr.inv (.inr htp)
    · exact hur.complete_inv

/-! ### The cycle -/

theorem inCycle_b {s : State} (hc : s.cph = .b) : s.InCycle ↔ s.is = true ∧ s.InCapture := by
  simp [State.InCycle, hc]

theorem inCycle_d {s : State} (hc : s.cph = .d) :
    s.InCycle ↔ s.is = false ∧ s.fl = s.ext ∧ s.InEmission := by
  simp [State.InCycle, hc]

theorem inCycle_e {s : State} (hc : s.cph = .e) :
    s.InCycle ↔ s.is = false ∧ s.fl = s.ext ∧ s.InDelay := by
  simp [State.InCycle, hc]

theorem State.Runs.startCycle {s : State} {i : Instr} (h : s.Runs i) : (startCycle s).Runs i :=
  State.Runs.startCapture (s := { s with is := true, cph := .b }) h

/-- A cycle starts at a place in step (b) (R105). -/
theorem startCycle_inCycle (s : State) : (startCycle s).InCycle := by
  obtain ⟨-, -, his, hc, -⟩ :=
    sameAround_startPass s.basePass { s with is := true, cph := .b, fl := false, kph := .pass1 }
  exact (inCycle_b hc).mpr ⟨his, startCapture_inCapture _⟩

/-- A stored frame is queued at a place in step (d): no entry of it is unwritten (R105, R107). -/
theorem afterCapture_inCycle {s : State} {i : Instr} (hr : s.Runs i) (hs : s.FrameStored) :
    (afterCapture s).Runs i ∧ (afterCapture s).InCycle := by
  have heq : afterCapture s = queueBytes State.frameBytes { s with is := false, cph := .d } :=
    guardWritten_of_written hs.2
  rw [heq]
  exact ⟨hr, (inCycle_d rfl).mpr ⟨rfl, hs.1, rfl, frameBytes_ne_nil _⟩⟩

/-- CYCLE and RUN keep the invariant if what follows step (e) does (R105, R106). -/
theorem cycleTick_keepsInv {i : Instr} {k : State → State} (hAt : ∀ s : State, s.At i ↔ s.InCycle)
    (hk : ∀ s : State, s.Runs i → (k s).Inv) : TickKeepsInv i (cycleTick k) := by
  intro s t hr hp h
  rcases cycleTick_cases h with ⟨-, rfl⟩ | ⟨ha, hc, h⟩ | ⟨ha, hc, h⟩ | ⟨ha, hc, h⟩
  · exact hr.startCycle.inv (.inr ((hAt _).mpr (startCycle_inCycle s)))
  · obtain ⟨his, hcap⟩ := (inCycle_b hc).mp ((hAt s).mp (hp.resolve_left ha))
    rcases captureTick_inCapture hr hcap h with ⟨htr, htp, his', hc'⟩ | ⟨u, rfl, hur, hstored, -, -⟩
    · exact htr.inv (.inr ((hAt t).mpr ((inCycle_b (hc'.trans hc)).mpr ⟨his'.trans his, htp⟩)))
    · obtain ⟨hrun, hplace⟩ := afterCapture_inCycle hur hstored
      exact hrun.inv (.inr ((hAt _).mpr hplace))
  · obtain ⟨his, hfl, -⟩ := (inCycle_d hc).mp ((hAt s).mp (hp.resolve_left ha))
    refine sendTick_inv hr (fun b rest hne hsend => ?_) (fun b hu => ?_) h
    · exact (hAt _).mpr ((inCycle_d (s := ({ s with oq := rest } : State).transmit b) hc).mpr ⟨his, hfl, hsend, hne⟩)
    · exact startDelay_inv (i := i) hu
        (fun hpos => (hAt _).mpr ((inCycle_e rfl).mpr ⟨his, hfl, rfl, hpos⟩)) (hk _)
  · obtain ⟨his, hfl, -⟩ := (inCycle_e hc).mp ((hAt s).mp (hp.resolve_left ha))
    refine delayTick_inv hr (fun hdelay hdc => (hAt _).mpr ?_) (hk _) h
    exact (inCycle_e (s := { s with dc := s.dc - 1 }) hc).mpr ⟨his, hfl, hdelay, Nat.sub_pos_of_lt hdc⟩

/-! ### One tick of any command, and one step -/

theorem exec_inv {i : Instr} {s t : State} (hs : s.Inv) (hcur : s.busy = true → decodeWord s.cur = some i)
    (h : exec i s = .next t) : t.Inv := by
  cases i with
  | nop => exact command_inv (singleTick_keepsInv fun _ hr => hr.complete_inv) hs hcur h
  | wfe line => exact command_inv (waitTick_keepsInv .falling line fun _ => Iff.rfl) hs hcur h
  | wre line => exact command_inv (waitTick_keepsInv .rising line fun _ => Iff.rfl) hs hcur h
  | smps l idx nm1 =>
    exact command_inv (sampleTick_keepsInv (i := .smps l idx nm1) (p := smpsPass l idx nm1)
      (fun _ => Iff.rfl) (Nat.succ_pos _) passInRange_iff.mp) hs hcur h
  | smpl l p idx nm1 =>
    exact command_inv (sampleTick_keepsInv (i := .smpl l p idx nm1) (p := smplPass l p idx nm1)
      (fun _ => Iff.rfl) (Nat.succ_pos _) passInRange_iff.mp) hs hcur h
  | det => exact command_inv (singleTick_keepsInv fun _ hr => complete_det_inv hr) hs hcur h
  | emc start count =>
    exact command_inv (emitTick_keepsInv (fun _ => Iff.rfl) fun s => compactBytes_ne_nil s _ _) hs hcur h
  | emd start count =>
    exact command_inv (emitTick_keepsInv (fun _ => Iff.rfl) fun s => debugBytes_ne_nil s _ _) hs hcur h
  | irqoff =>
    exact command_inv (singleTick_keepsInv fun s hr =>
      State.Runs.complete_inv (s := { s with is := true }) (i := .irqoff) hr) hs hcur h
  | irqon =>
    exact command_inv (singleTick_keepsInv fun s hr =>
      State.Runs.complete_inv (s := { s with is := false }) (i := .irqon) hr) hs hcur h
  | dly => exact command_inv dlyTick_keepsInv hs hcur h
  | cap => exact command_inv capTick_keepsInv hs hcur h
  | emf => exact command_inv (emitTick_keepsInv (fun _ => Iff.rfl) frameBytes_ne_nil) hs hcur h
  | cycle => exact command_inv (cycleTick_keepsInv (fun _ => Iff.rfl) fun _ hr => hr.complete_inv) hs hcur h
  | run =>
    exact command_inv (cycleTick_keepsInv (i := .run) (fun _ => Iff.rfl) fun s hr =>
      hr.startCycle.inv (.inr (startCycle_inCycle s))) hs hcur h

theorem sequencerTick_inv {s t : State} (hs : s.Inv) (h : sequencerTick s = .next t) : t.Inv := by
  unfold sequencerTick at h
  split at h
  · cases h; exact hs
  · split at h
    · split at h
      · next i hd => exact exec_inv hs (fun _ => hd) h
      · cases h
    · cases h; exact hs

theorem cmdWrite_inv {v : BusWord} {s t : State} (hs : s.Inv) (h : cmdWrite v s = .next t) : t.Inv := by
  unfold cmdWrite at h
  split at h
  · cases h; exact hs
  · next hf =>
    have hsound : s.Sound := hs.sound (Bool.eq_false_of_not_eq_true hf)
    split at h
    · cases h; exact hsound.raiseFault_inv (by decide) (zext32_lt _)
    · next hidle =>
      split at h
      · cases h; exact hsound.raiseFault_inv (by decide) (zext32_lt _)
      · exact exec_inv hs (fun hb => absurd hb hidle) h

theorem cfgWrite_inv {v : BusWord} {s : State} (hs : s.Inv) : (cfgWrite v s).Inv := by
  unfold cfgWrite
  split
  · exact hs
  · next hf =>
    split
    · exact (hs.sound (Bool.eq_false_of_not_eq_true hf)).raiseFault_inv (by decide) (zext32_lt _)
    · next hidle =>
      exact ⟨hs.admissible, hs.faultFields, hs.counters, hs.port, hs.idle, fun hb => absurd hb hidle⟩

/-- A host read touches nothing the invariant speaks of (R48). -/
theorem busRead_inv {r : Reg} {s : State} (hs : s.Inv) : (busRead r s).Inv :=
  ⟨hs.admissible, hs.faultFields, hs.counters, hs.port, hs.idle, hs.placed⟩

/-- The port is free when a tick opens; the rest is as it was. -/
theorem openTick_inv {s : State} (hs : s.Inv) : s.openTick.Inv :=
  ⟨hs.admissible, hs.faultFields, hs.counters, nofun, hs.idle, hs.placed⟩

/-- A reset of the block meets the invariant on every admissible platform, whatever device and host do (R131). -/
theorem resetBlock_inv {s : State} (hp : s.params.Admissible) : s.resetBlock.Inv :=
  have h := resetOn_inv hp
  ⟨h.admissible, h.faultFields, h.counters, h.port, h.idle, h.placed⟩

theorem writeTick_inv {r : Reg} {v : BusWord} {s t : State} (hs : s.Inv) (h : writeTick r v s = .next t) : t.Inv := by
  cases r with
  | cmd => exact cmdWrite_inv hs h
  | cfg => exact sequencerTick_inv (cfgWrite_inv hs) h
  | status | buf | finfo | reserved => exact sequencerTick_inv hs h

theorem runTick_inv {a : Option HostAccess} {s t : State} (hs : s.Inv) (h : runTick a s = .next t) : t.Inv := by
  unfold runTick at h
  split at h
  · exact sequencerTick_inv hs h
  · split at h
    · cases h
    · exact sequencerTick_inv (busRead_inv hs) h
  · split at h
    · cases h
    · exact writeTick_inv hs h

theorem resetTick_inv {a : Option HostAccess} {s t : State} (hp : s.params.Admissible)
    (h : resetTick a s = .next t) : t.Inv := by
  unfold resetTick at h
  split at h
  · cases h; exact resetBlock_inv hp
  · split at h <;> cases h
    exact resetBlock_inv hp
  · split at h <;> cases h
    exact resetBlock_inv hp

/-- Settles O59: the tick opens on a state of the invariant, and a reset and every tick of the host and the running
command keep it. -/
theorem stepKeepsTheInvariant : Obligations.StepKeepsTheInvariant := by
  intro s t hs h
  have hopen := openTick_inv hs
  unfold step tick at h
  split at h
  · exact resetTick_inv hopen.admissible h
  · exact runTick_inv hopen h

end Sys2Proof.Machine

namespace Sys2Proof.Machine

/-! ### The parts of a frame, field by field -/

section
variable {s t : State}

@[simp] theorem sameSetting_iff : SameSetting s t ↔
    t.params = s.params ∧ t.strat = s.strat ∧ t.framer = s.framer ∧ t.longWait = s.longWait ∧
    t.rdata = s.rdata ∧ t.bufReads = s.bufReads ∧ t.hostq = s.hostq := Iff.rfl

@[simp] theorem sameBuffer_iff : SameBuffer s t ↔ t.buf = s.buf ∧ t.wr = s.wr := Iff.rfl

@[simp] theorem sameOutput_iff : SameOutput s t ↔ t.out = s.out ∧ t.tx = s.tx := Iff.rfl

@[simp] theorem sameLength_iff : SameLength s t ↔ t.fl = s.fl ∧ t.ext = s.ext := Iff.rfl

@[simp] theorem sameFault_iff : SameFault s t ↔ t.flt = s.flt ∧ t.fcode = s.fcode ∧ t.finfo = s.finfo := Iff.rfl

@[simp] theorem sameDevice_iff : SameDevice s t ↔
    t.latchAns = s.latchAns ∧ t.clockAns = s.clockAns ∧ t.dataAns = s.dataAns ∧ t.draws = s.draws := Iff.rfl

@[simp] theorem samePass_iff : SamePass s t ↔ t.ews = s.ews ∧ t.bi = s.bi ∧ t.sc = s.sc := Iff.rfl

@[simp] theorem sameCycle_iff : SameCycle s t ↔
    t.dc = s.dc ∧ t.oq = s.oq ∧ t.cph = s.cph ∧ t.kph = s.kph := Iff.rfl

@[simp] theorem sentAtMostOne_iff : SentAtMostOne s t ↔
    SameOutput s t ∨ ∃ b, t.out = s.out ++ [b] ∧ t.tx = some b := Iff.rfl

end

/-! ### One tick of a command, for its frame -/

/-- A tick that ends in a next state is of a halted block, of a block in the command (with another CUR, BUSY and next action
if it accepts the command now), or faults on a command out of range (R58, R119). -/
theorem command_ticks {i : Instr} {f : State → Result} {s t : State} (h : command i f s = .next t) :
    (s.flt = true ∧ t = s) ∨
    (s.flt = false ∧ ∃ c a, (a = .accept ∨ a = s.act ∧ s.busy = true) ∧
      f { s with cur := c, busy := true, act := a } = .next t) ∨
    (i.inRange = false ∧ t = raiseFault .operandRange (zext32 (encode i)) s) := by
  rcases command_cases h with hhalt | ⟨⟨hf, hb⟩, h⟩ | ⟨hidle, -, h⟩ | ⟨-, hr, rfl⟩
  · exact .inl hhalt
  · exact .inr (.inl ⟨hf, s.cur, s.act, .inr ⟨rfl, hb⟩, by rw [← hb]; exact h⟩)
  · exact .inr (.inl ⟨hidle.1, encode i, .accept, .inl rfl, h⟩)
  · exact .inr (.inr ⟨hr, rfl⟩)

/-- A command in range does not fault before its first tick. -/
theorem command_ticks_of_wellFormed {i : Instr} {f : State → Result} {s t : State} (hwf : i.WellFormed)
    (h : command i f s = .next t) :
    (s.flt = true ∧ t = s) ∨
    (s.flt = false ∧ ∃ c a, (a = .accept ∨ a = s.act ∧ s.busy = true) ∧
      f { s with cur := c, busy := true, act := a } = .next t) := by
  rcases command_ticks h with hhalt | htick | ⟨hr, -⟩
  · exact .inl hhalt
  · exact .inr htick
  · exact absurd (hwf.symm.trans hr) (by decide)

/-- A one-tick command in range completes in its tick. -/
theorem command_singleTick {i : Instr} {k : State → State} {s t : State} (hwf : i.WellFormed)
    (h : command i (singleTick k) s = .next t) :
    t = s ∨ (s.flt = false ∧ ∃ c a, t = complete (k { s with cur := c, busy := true, act := a })) := by
  rcases command_ticks_of_wellFormed hwf h with ⟨-, rfl⟩ | ⟨hf, c, a, -, h⟩
  · exact .inl rfl
  · exact .inr ⟨hf, c, a, (singleTick_cases h).2⟩

/-- A delay begins with its first tick to come, or is over at once (R102). -/
theorem startDelay_cases (k : State → State) (s : State) :
    startDelay k s = k { s with dc := 0 } ∨
    startDelay k s = { s with dc := s.params.interCycleTicks, act := .delay } := by
  unfold startDelay
  split
  · exact .inl rfl
  · exact .inr rfl

/-! ### Frames of the commands that observe no line -/

/-- Settles O37: the classification or its fault is all the one tick of DET writes. -/
theorem detChangesNothingElse : Obligations.DetChangesNothingElse := by
  intro s t h
  obtain rfl | ⟨hf, c, a, rfl⟩ := command_singleTick rfl h
  · simp
  · rcases guardWritten_cases markerEntries recordClass { s with cur := c, busy := true, act := a } with
      ⟨-, heq⟩ | ⟨j, -, -, -, heq⟩ <;> rw [heq]
    · simp [recordClass, hf]
    · simp

/-- Settles O49: NOP, IRQOFF and IRQON complete in their tick, DLY sets DC alone. -/
theorem oneTickCommandsChangeNothingElse : Obligations.OneTickCommandsChangeNothingElse := by
  intro s t i hi h
  simp only [List.mem_cons, List.not_mem_nil, or_false] at hi
  rcases hi with rfl | rfl | rfl | rfl
  iterate 3 · obtain rfl | ⟨-, c, a, rfl⟩ := command_singleTick rfl h <;> simp
  · rcases command_ticks_of_wellFormed rfl h with ⟨-, rfl⟩ | ⟨-, c, a, -, h⟩
    · simp
    · rcases dlyTick_cases h with ⟨-, rfl⟩ | ⟨-, h⟩
      · obtain heq | heq := startDelay_cases complete { s with cur := c, busy := true, act := a } <;>
          rw [heq] <;> simp
      · obtain ⟨-, ⟨-, rfl⟩ | ⟨-, rfl⟩⟩ := delayTick_cases h <;> simp

/-- Settles O45: an emission queues its bytes or faults, then each tick takes one byte of the queue to OUT. -/
theorem emissionsChangeNothingElse : Obligations.EmissionsChangeNothingElse := by
  intro s t start count h
  obtain ⟨i, entriesRead, bytes, h⟩ : ∃ i c f, command i (emitTick c f) s = .next t := by
    rcases h with h | h | h <;> exact ⟨_, _, _, h⟩
  rcases command_ticks h with ⟨-, rfl⟩ | ⟨hf, c, a, -, h⟩ | ⟨-, rfl⟩
  · simp
  · rcases emitTick_cases h with ⟨-, rfl⟩ | ⟨-, h⟩
    · obtain ⟨-, heq⟩ | ⟨j, -, -, -, heq⟩ := guardWritten_cases (entriesRead _) (queueBytes bytes) _ <;>
        rw [heq] <;> simp [hf]
    · obtain ⟨-, b, rest, -, ⟨-, rfl⟩ | ⟨-, rfl⟩⟩ := sendTick_cases h <;> simp [hf]
  · simp

/-- A tick of an emission from its queue: the next byte goes out, and the last one completes the command (R144). -/
theorem sendTick_complete {s : State} {b : Byte} {rest : List Byte} (hb : s.busy = true) (ha : s.act = .send)
    (hq : s.oq = b :: rest) :
    sendTick complete s = .next { s with
      oq := rest, out := s.out ++ [b], tx := some b,
      busy := !rest.isEmpty, act := if rest.isEmpty then .accept else .send } := by
  cases rest with
  | nil => simp [sendTick, ha, hq, complete, State.transmit]
  | cons c rest => simp [sendTick, ha, hq, hb, State.transmit]

/-- A framing command past its acceptance tick sends. -/
theorem emitTick_of_send {c : State → List Nat} {f : State → List Byte} {s : State} (ha : s.act = .send) :
    emitTick c f s = sendTick complete s := by
  simp only [emitTick, ha]

/-- Settles O43: EMC, EMD and EMF share the tick that sends from the queue. -/
theorem emissionsSendAByteATick : Obligations.EmissionsSendAByteATick := by
  intro s start count b rest i hi hbusy ha hq
  rw [← sendTick_complete hbusy.2 ha hq]
  rcases hi with rfl | rfl | rfl <;> exact (command_busy hbusy).trans (emitTick_of_send ha)

/-! ### Frame of the waits -/

/-- An observation leaves the answers to come on the other lines (R10, R14). -/
theorem answers_afterObs_of_ne (s : State) {line other : Line} (h : other ≠ line) :
    (s.afterObs line).answers other = s.answers other := by
  unfold State.afterObs
  split
  · exact answers_withAnswers_of_ne s h _
  · rfl

theorem answers_edgeStep_of_ne (s : State) (e : Edge) (line other : Line) (h : other ≠ line) :
    (s.edgeStep e line).answers other = s.answers other := by
  rw [← answers_afterObs_of_ne s h]
  cases other <;> rfl

@[simp] theorem complete_answers (s : State) (line : Line) : (complete s).answers line = s.answers line := by
  cases line <;> rfl

/-- Settles O27: a wait is accepted, then observes its own line once a tick. -/
theorem waitsChangeNothingElse : Obligations.WaitsChangeNothingElse := by
  intro s t line h
  obtain ⟨i, e, hwf, h⟩ : ∃ i e, Instr.WellFormed i ∧ command i (waitTick e line) s = .next t := by
    rcases h with h | h
    · exact ⟨.wfe line, .falling, rfl, h⟩
    · exact ⟨.wre line, .rising, rfl, h⟩
  rcases command_ticks_of_wellFormed hwf h with ⟨-, rfl⟩ | ⟨-, c, a, -, h⟩
  · simp
  · rcases waitTick_cases h with ⟨-, rfl⟩ | ⟨-, rfl⟩
    · simp [State.answers]
    · have hline : ∀ other, other ≠ line →
          (({ s with cur := c, busy := true, act := a } : State).edgeStep e line).answers other = s.answers other :=
        answers_edgeStep_of_ne _ e line
      split
      · simpa using hline
      · simpa using hline

/-! ### Frames of sampling, capture and cycle -/

/-- Every entry but e is as before, and e too unless the next action is a DATA observation (R78, R81). -/
def SameEntriesBut (e : Nat) (s t : State) : Prop :=
  ∀ j, (s.act = .data → j ≠ e) → t.bufRead j = s.bufRead j ∧ t.written j = s.written j

/-- What every tick of a pass, a capture or a cycle leaves alone up to its end: setting, fault fields, BUSY and all
entries but e. -/
def SamplingFrame (e : Nat) (s t : State) : Prop :=
  SameSetting s t ∧ SameFault s t ∧ t.busy = s.busy ∧ SameEntriesBut e s t

/-- A cycle sends at most one byte a tick. -/
def CycleFrame (e : Nat) (s t : State) : Prop := SamplingFrame e s t ∧ SentAtMostOne s t

/-- A capture sends nothing and leaves IS and the variables of delay, emission and cycle alone. -/
def CaptureFrame (e : Nat) (s t : State) : Prop :=
  SamplingFrame e s t ∧ SameOutput s t ∧ t.is = s.is ∧ t.oq = s.oq ∧ t.dc = s.dc ∧ t.cph = s.cph

/-- A pass leaves the frame length and the step of a capture alone too. -/
def PassFrame (e : Nat) (s t : State) : Prop := CaptureFrame e s t ∧ SameLength s t ∧ t.kph = s.kph

theorem PassFrame.refl (e : Nat) (s : State) : PassFrame e s s := by
  simp [PassFrame, CaptureFrame, SamplingFrame, SameEntriesBut]

theorem passFrame_edgeStep (e : Nat) (s : State) (edge : Edge) (line : Line) :
    PassFrame e s (s.edgeStep edge line) := by
  obtain ⟨_, _, _, _, h⟩ := edgeStep_eq s edge line
  rw [h]; exact PassFrame.refl e s

/-- A buffer write leaves the other entries alone (R17). -/
theorem bufWrite_other (s : State) {i j : Nat} (v : Bool) (h : j ≠ i) :
    (s.bufWrite i v).bufRead j = s.bufRead j ∧ (s.bufWrite i v).written j = s.written j := by
  simp [State.bufRead, State.written, getLsbD_setBit, h]

theorem passFrame_storeBit {p : Pass} {s : State} (ha : s.act = .data) :
    PassFrame (p.idx + s.bi) s (storeBit p s) := by
  obtain ⟨⟨⟨hset, hfault, hbusy, -⟩, hcap⟩, hpass⟩ := PassFrame.refl (p.idx + s.bi) s
  obtain ⟨_, _, _, _, h⟩ := storeBit_eq p s
  rw [h]
  exact ⟨⟨⟨hset, hfault, hbusy, fun j hj => bufWrite_other s _ (hj ha)⟩, hcap⟩, hpass⟩

theorem passFrame_startPass (e : Nat) (p : Pass) (s : State) : PassFrame e s (startPass p s) := by
  obtain ⟨_, _, h⟩ := startPass_eq p s
  rw [h]; exact PassFrame.refl e s

/-- A tick of a pass stores at most entry idx + BI, and what follows the pass comes after it. -/
theorem passTick_frame {p : Pass} {k : State → State} {s t : State} (h : passTick p k s = .next t) :
    ∃ u, PassFrame (p.idx + s.bi) s u ∧ (t = u ∨ t = k u) := by
  rcases passTick_cases h with ⟨-, rfl⟩ | ⟨-, rfl⟩ | ⟨ha, -, rfl⟩ | ⟨ha, -, rfl⟩ | ⟨-, rfl⟩
  · refine ⟨_, ?_, .inl rfl⟩
    split
    · obtain ⟨_, _, heq⟩ := afterLatch_eq p (s.edgeStep .falling .latch)
      rw [heq]; exact passFrame_edgeStep _ s .falling .latch
    · exact passFrame_edgeStep _ s .falling .latch
  · refine ⟨_, ?_, .inl rfl⟩
    split <;> exact passFrame_edgeStep _ s .falling .clock
  · obtain ⟨_, _, heq⟩ := nextBit_eq p (storeBit p s)
    exact ⟨_, by rw [heq]; exact passFrame_storeBit ha, .inl rfl⟩
  · exact ⟨_, passFrame_storeBit ha, .inr rfl⟩
  · refine ⟨_, ?_, .inl rfl⟩
    exact PassFrame.refl _ s

theorem sampleTick_frame {p : Pass} {s t : State} (h : sampleTick p s = .next t) :
    ∃ u, PassFrame (p.idx + s.bi) s u ∧ (t = u ∨ t = complete u) := by
  rcases sampleTick_cases h with ⟨-, rfl⟩ | ⟨-, h⟩
  · exact ⟨_, passFrame_startPass _ p s, .inl rfl⟩
  · exact passTick_frame h

/-- In the tick that accepts a command the next action is no DATA observation. -/
theorem SameEntriesBut.of_command {e : Nat} {s t : State} {c : CmdWord} {a : Action}
    (h : SameEntriesBut e { s with cur := c, busy := true, act := a } t)
    (hact : a = .accept ∨ a = s.act ∧ s.busy = true) (j : Nat) (hj : s.act = .data → s.busy = true → j ≠ e) :
    t.bufRead j = s.bufRead j ∧ t.written j = s.written j := by
  refine h j fun ha => ?_
  rcases hact with rfl | ⟨rfl, hb⟩
  · cases ha
  · exact hj ha hb

/-- Settles O35: SMPS and SMPL run one pass, and complete at its end. -/
theorem samplingChangesNothingElse : Obligations.SamplingChangesNothingElse := by
  intro s t l p idx nm1 hfit h
  have hrange : passInRange idx nm1 = true := passInRange_iff.mpr hfit
  obtain ⟨i, q, hwf, hidx, h⟩ : ∃ (i : Instr) (q : Pass),
      i.WellFormed ∧ q.idx = idx.toNat ∧ command i (sampleTick q) s = .next t := by
    rcases h with h | h
    · exact ⟨.smps l idx nm1, _, hrange, rfl, h⟩
    · exact ⟨.smpl l p idx nm1, _, hrange, rfl, h⟩
  rw [← hidx]
  rcases command_ticks_of_wellFormed hwf h with ⟨-, rfl⟩ | ⟨-, c, a, hact, h⟩
  · simp
  · obtain ⟨u, ⟨⟨⟨hset, hfault, -, hentries⟩, hout, his, hoq, hdc, hcph⟩, hlen, hkph⟩, ht⟩ := sampleTick_frame h
    rcases ht with rfl | rfl <;>
      exact ⟨hset, hout, hlen, hfault, ⟨hdc, hoq, hcph, hkph⟩, his, fun j _ => hentries.of_command hact j⟩

/-- The entry that the DATA observation of a capture stores (R103). -/
def State.captureEntry (s : State) : Nat := if s.kph = .pass1 then s.bi else 16 + s.bi

/-- A step of CAP, CYCLE or RUN ends in u, in what follows it at u, or in a fault on an unwritten entry. -/
def EndsAt (k : State → State) (u t : State) : Prop :=
  t = u ∨ t = k u ∨ ∃ info, t = raiseFault .unwrittenRead info u

/-- The classification writes EXT and KPH, and starts the extension pass, ends the capture or faults (R103). -/
theorem CaptureFrame.afterBasePass {e : Nat} {s u : State} (hu : CaptureFrame e s u) (k : State → State) :
    ∃ v, CaptureFrame e s v ∧ EndsAt k v (afterBasePass k u) := by
  unfold Machine.afterBasePass
  rcases guardWritten_cases markerEntries (classifyFrame k) { u with kph := .classify } with
    ⟨-, heq⟩ | ⟨j, -, -, -, heq⟩ <;> rw [heq]
  · unfold classifyFrame
    split
    · obtain ⟨sc, a, hstart⟩ := startPass_eq u.extPass { u with ext := true, kph := .pass2 }
      refine ⟨_, ?_, .inl hstart⟩
      exact hu
    · exact ⟨{ u with kph := .classify, ext := false }, hu, .inr (.inl rfl)⟩
  · exact ⟨{ u with kph := .classify }, hu, .inr (.inr ⟨_, rfl⟩)⟩

/-- A tick of a capture stores at most its own entry, and what follows the capture comes after it (R103). -/
theorem captureTick_frame {k : State → State} {s t : State} (h : captureTick k s = .next t) :
    ∃ u, CaptureFrame s.captureEntry s u ∧ EndsAt k u t := by
  rcases captureTick_cases h with ⟨hk, h⟩ | ⟨hk, h⟩
  · have he : s.basePass.idx + s.bi = s.captureEntry := by simp [State.basePass, State.captureEntry, hk]
    obtain ⟨u, ⟨hu, -⟩, ht⟩ := passTick_frame h
    rw [he] at hu
    rcases ht with rfl | rfl
    · exact ⟨_, hu, .inl rfl⟩
    · exact hu.afterBasePass k
  · have he : s.extPass.idx + s.bi = s.captureEntry := by
      simp [State.extPass, State.captureEntry, hk, Config.baseLen]
    obtain ⟨u, ⟨hu, -⟩, ht⟩ := passTick_frame h
    rw [he] at hu
    rcases ht with rfl | rfl
    · exact ⟨_, hu, .inl rfl⟩
    · exact ⟨{ u with fl := true }, hu, .inr (.inl rfl)⟩

theorem CaptureFrame.cycleFrame {e : Nat} {s u : State} (h : CaptureFrame e s u) : CycleFrame e s u := by
  obtain ⟨hkept, hout, -⟩ := h
  exact ⟨hkept, .inl hout⟩

theorem CaptureFrame.refl (e : Nat) (s : State) : CaptureFrame e s s := (PassFrame.refl e s).1

theorem CycleFrame.refl (e : Nat) (s : State) : CycleFrame e s s := (CaptureFrame.refl e s).cycleFrame

/-- The start of a capture sets FL and KPH beside what the start of its base pass sets (R103). -/
theorem startCapture_eq (s : State) : ∃ c a, startCapture s =
    { s with fl := false, kph := .pass1, bi := 0, ews := .pre, sc := c, act := a } :=
  startPass_eq s.basePass { s with fl := false, kph := .pass1 }

/-- The start of a cycle sets IS and CPH beside what the start of its capture sets (R105). -/
theorem startCycle_eq (s : State) : ∃ c a, startCycle s =
    { s with is := true, cph := .b, fl := false, kph := .pass1, bi := 0, ews := .pre, sc := c, act := a } :=
  startCapture_eq { s with is := true, cph := .b }

theorem captureFrame_startCapture (e : Nat) (s : State) : CaptureFrame e s (startCapture s) := by
  obtain ⟨_, _, h⟩ := startCapture_eq s
  rw [h]; exact CaptureFrame.refl e s

theorem CycleFrame.startCycle {e : Nat} {s u : State} (hu : CycleFrame e s u) : CycleFrame e s (startCycle u) := by
  obtain ⟨_, _, h⟩ := startCycle_eq u
  rw [h]; exact hu

theorem capTick_frame {s t : State} (h : capTick s = .next t) :
    ∃ u, CaptureFrame s.captureEntry s u ∧ EndsAt complete u t := by
  rcases capTick_cases h with ⟨-, rfl⟩ | ⟨-, h⟩
  · exact ⟨_, captureFrame_startCapture _ s, .inl rfl⟩
  · exact captureTick_frame h

/-- The end of a capture clears IS and queues the frame, or faults (R105). -/
theorem CycleFrame.afterCapture {e : Nat} {s u : State} (hu : CycleFrame e s u) (k : State → State) :
    ∃ v, CycleFrame e s v ∧ EndsAt k v (afterCapture u) := by
  unfold Machine.afterCapture
  rcases guardWritten_cases u.frameEntries (queueBytes State.frameBytes) { u with is := false, cph := .d } with
    ⟨-, heq⟩ | ⟨j, -, -, -, heq⟩ <;> rw [heq]
  · refine ⟨_, ?_, .inl rfl⟩
    exact hu
  · exact ⟨{ u with is := false, cph := .d }, hu, .inr (.inr ⟨_, rfl⟩)⟩

/-- The end of an emission begins the delay, which may be over at once (R105). -/
theorem CycleFrame.afterEmission {e : Nat} {s u : State} (hu : CycleFrame e s u) (k : State → State) :
    ∃ v, CycleFrame e s v ∧ EndsAt k v (afterEmission k u) := by
  unfold Machine.afterEmission
  rcases startDelay_cases k { u with cph := .e } with heq | heq <;> rw [heq]
  · exact ⟨{ u with cph := .e, dc := 0 }, hu, .inr (.inl rfl)⟩
  · refine ⟨_, ?_, .inl rfl⟩
    exact hu

/-- A byte taken from the queue is the one byte of its tick (R144). -/
theorem cycleFrame_transmit (e : Nat) (s : State) (b : Byte) (rest : List Byte) :
    CycleFrame e s (({ s with oq := rest } : State).transmit b) := by
  obtain ⟨hkept, -⟩ := CycleFrame.refl e s
  exact ⟨hkept, .inr ⟨b, rfl, rfl⟩⟩

/-- A tick of CYCLE or RUN stores at most the capture's entry and sends at most a byte, and what follows step (e) comes
after that (R105, R106). -/
theorem cycleTick_frame {k : State → State} {s t : State} (h : cycleTick k s = .next t) :
    ∃ u, CycleFrame s.captureEntry s u ∧ EndsAt k u t := by
  rcases cycleTick_cases h with ⟨-, rfl⟩ | ⟨-, -, h⟩ | ⟨-, -, h⟩ | ⟨-, -, h⟩
  · exact ⟨_, (CycleFrame.refl _ s).startCycle, .inl rfl⟩
  · obtain ⟨u, hu, rfl | rfl | ⟨info, rfl⟩⟩ := captureTick_frame h
    · exact ⟨_, hu.cycleFrame, .inl rfl⟩
    · exact hu.cycleFrame.afterCapture k
    · exact ⟨u, hu.cycleFrame, .inr (.inr ⟨info, rfl⟩)⟩
  · obtain ⟨-, b, rest, -, ⟨-, rfl⟩ | ⟨-, rfl⟩⟩ := sendTick_cases h
    · exact (cycleFrame_transmit _ s b []).afterEmission k
    · exact ⟨_, cycleFrame_transmit _ s b rest, .inl rfl⟩
  · obtain ⟨-, ⟨-, rfl⟩ | ⟨-, rfl⟩⟩ := delayTick_cases h
    · refine ⟨_, ?_, .inr (.inl rfl)⟩
      exact CycleFrame.refl _ s
    · refine ⟨_, ?_, .inl rfl⟩
      exact CycleFrame.refl _ s

/-- Settles O53: where CYCLE would complete, RUN starts the next cycle, and no other tick of it clears BUSY but a fault. -/
theorem runNeverCompletes : Obligations.RunNeverCompletes := by
  intro s t h hflt
  rcases command_ticks_of_wellFormed rfl h with ⟨hf, rfl⟩ | ⟨-, c, a, -, h⟩
  · exact absurd (hf.symm.trans hflt) (by decide)
  · obtain ⟨u, hu, hend⟩ := cycleTick_frame h
    rcases hend with rfl | rfl | ⟨info, rfl⟩
    · obtain ⟨⟨-, -, hbusy, -⟩, -⟩ := hu
      exact hbusy
    · obtain ⟨⟨-, -, hbusy, -⟩, -⟩ := hu.startCycle
      exact hbusy
    · cases hflt

/-- What a whole tick of a cycle or a capture leaves alone: a fault writes the fault fields. -/
def CycleTickFrame (e : Nat) (s t : State) : Prop :=
  SameSetting s t ∧ SentAtMostOne s t ∧ SameEntriesBut e s t ∧ (t.flt = false → SameFault s t)

theorem CycleFrame.tickFrame {e : Nat} {s u : State} (hu : CycleFrame e s u) : CycleTickFrame e s u := by
  obtain ⟨⟨hset, hfault, -, hentries⟩, hsent⟩ := hu
  exact ⟨hset, hsent, hentries, fun _ => hfault⟩

/-- What follows u keeps that frame if k does at u: fault entry writes the fault fields alone of it. -/
theorem CycleTickFrame.endsAt {e : Nat} {k : State → State} {s u t : State} (hu : CycleTickFrame e s u)
    (hk : CycleTickFrame e s (k u)) (h : EndsAt k u t) : CycleTickFrame e s t := by
  rcases h with rfl | rfl | ⟨info, rfl⟩
  · exact hu
  · exact hk
  · obtain ⟨hset, hsent, hentries, -⟩ := hu
    exact ⟨hset, hsent, hentries, nofun⟩

/-- Settles O54: each tick is one of the capture, the emission or the delay, and its end, start or fault comes after it. -/
theorem capturesAndCyclesChangeNothingElse : Obligations.CapturesAndCyclesChangeNothingElse := by
  intro s t i hi h
  simp only [List.mem_cons, List.not_mem_nil, or_false] at hi
  rcases hi with rfl | hi
  · rcases command_ticks_of_wellFormed rfl h with ⟨-, rfl⟩ | ⟨-, c, a, hact, h⟩
    · simp
    · obtain ⟨u, hu, hend⟩ := capTick_frame h
      obtain ⟨hset, hsent, hentries, hfault⟩ := hu.cycleFrame.tickFrame.endsAt hu.cycleFrame.tickFrame hend
      obtain ⟨-, hout, his, hoq, hdc, hcph⟩ := hu
      refine ⟨hset, hsent, fun j _ => hentries.of_command hact j, fun _ => ?_, fun hf => ⟨hfault hf, fun _ => ?_⟩⟩
      · rcases hend with rfl | rfl | ⟨info, rfl⟩ <;> exact ⟨hout, hoq, hdc, hcph⟩
      · rcases hend with rfl | rfl | ⟨info, rfl⟩
        · exact his
        · exact his
        · cases hf
  · obtain ⟨k, hk, hcap, hwf, h⟩ : ∃ k, (∀ e u v, CycleFrame e u v → CycleTickFrame e u (k v)) ∧
        i ≠ .cap ∧ i.WellFormed ∧ command i (cycleTick k) s = .next t := by
      rcases hi with rfl | rfl
      · exact ⟨complete, fun _ _ _ hv => hv.tickFrame, nofun, rfl, h⟩
      · exact ⟨startCycle, fun _ _ _ hv => hv.startCycle.tickFrame, nofun, rfl, h⟩
    rcases command_ticks_of_wellFormed hwf h with ⟨-, rfl⟩ | ⟨-, c, a, hact, h⟩
    · simp [hcap]
    · obtain ⟨u, hu, hend⟩ := cycleTick_frame h
      obtain ⟨hset, hsent, hentries, hfault⟩ := hu.tickFrame.endsAt (hk _ _ u hu) hend
      exact ⟨hset, hsent, fun j _ => hentries.of_command hact j, fun hi => absurd hi hcap,
        fun hf => ⟨hfault hf, fun hi => absurd hi hcap⟩⟩

/-! ### Reset and buffer writes -/

/-- Settles O1: the reset state holds R28's values field by field. -/
theorem resetLeavesSpecifiedValues : Obligations.ResetLeavesSpecifiedValues := by
  intro p
  simp [State.resetOn, FaultCode.bits, State.irqSuspend]

/-- A word access at a multiple of 4 reaches a register (R40, R47). -/
theorem accessReg_word_of_aligned {off : BitVec 5} (h : off.toNat % 4 = 0) : ∃ r, accessReg .word off = .ok r := by
  have hall : ∀ off : BitVec 5, off.toNat % 4 = 0 → (regAt off).isSome := by decide
  obtain ⟨r, hr⟩ := Option.isSome_iff_exists.mp (hall off h)
  exact ⟨r, by simp [accessReg, hr]⟩

/-- Settles O2: neither an idle bus nor a word write has any part in a reset. -/
theorem resetTickResetsTheBlock : Obligations.ResetTickResetsTheBlock := by
  intro s hrst haccess
  have hstep : step s = resetTick s.hostNow.access s.openTick := by simp [step, tick, hrst]
  have hreset : resetTick s.hostNow.access s.openTick = .next s.openTick.resetBlock := by
    rcases haccess with hnone | ⟨off, v, hwrite, halign⟩
    · rw [hnone]; rfl
    · obtain ⟨r, hr⟩ := accessReg_word_of_aligned halign
      simp [resetTick, hwrite, hr]
  exact hstep.trans hreset

/-- Settles O28: BUF and WR are written at bit i alone. -/
theorem bufWriteStoresOneEntry : Obligations.BufWriteStoresOneEntry := by
  intro s i j v hi _
  simp [State.bufRead, State.written, getLsbD_setBit, hi]

end Sys2Proof.Machine

namespace Sys2Proof.Machine

/-! ### What a host access reaches (R40, R47) -/

/-- An aligned offset names a register, a misaligned one none (R40, R53). -/
theorem regAt_eq_none_iff : ∀ off : BitVec 5, regAt off = none ↔ off.toNat % 4 ≠ 0 := by decide

/-- BUF stands at its own offset alone (R44). -/
theorem accessReg_word_eq_buf_iff : ∀ off : BitVec 5, accessReg .word off = .ok .buf ↔ off = 0x0C := by decide

theorem accessReg_of_subword {size : AccessSize} (off : BitVec 5) (h : size ≠ .word) :
    accessReg size off = .error .subwordAccess := by
  simp [accessReg, h]

theorem accessReg_of_misaligned {off : BitVec 5} (h : off.toNat % 4 ≠ 0) :
    accessReg .word off = .error .misalignedAccess := by
  simp [accessReg, (regAt_eq_none_iff off).mpr h]

/-- An access is a word at a register's offset, or R47 excludes it and it has its refusal's name. -/
theorem accessReg_cases (size : AccessSize) (off : BitVec 5) :
    (∃ r, accessReg size off = .ok r) ∨ (size ≠ .word ∧ accessReg size off = .error .subwordAccess) ∨
    (off.toNat % 4 ≠ 0 ∧ accessReg size off = .error .misalignedAccess) := by
  by_cases hsize : size = .word
  · subst hsize
    by_cases halign : off.toNat % 4 = 0
    · exact .inl (accessReg_word_of_aligned halign)
    · exact .inr (.inr ⟨halign, accessReg_of_misaligned halign⟩)
  · exact .inr (.inl ⟨hsize, accessReg_of_subword off hsize⟩)

/-- The host's access for the next tick has this size and offset. -/
def State.HostAccesses (s : State) (size : AccessSize) (off : BitVec 5) : Prop :=
  s.hostNow.access = some (.read size off) ∨ ∃ v, s.hostNow.access = some (.write size off v)

/-! ### One tick by what the host does at its boundary -/

section
variable {s : State} {e : HostTick} {q : List HostTick}

theorem hostNow_of_cons (h : s.hostq = e :: q) : s.hostNow = e := by simp [State.hostNow, h]

theorem openTick_of_cons (h : s.hostq = e :: q) :
    s.openTick = { s with hostq := q, tx := none, rdata := none } := by simp [State.openTick, h]

end

/-- A refused access refuses the tick, at either level of `rst` (R47). -/
theorem step_of_refused {s : State} {size : AccessSize} {off : BitVec 5} {r : Refusal}
    (haccess : s.HostAccesses size off) (hr : accessReg size off = .error r) : step s = .refused r := by
  unfold step tick
  rcases haccess with h | ⟨v, h⟩ <;> rw [h] <;> split <;> simp [resetTick, runTick, hr]

/-- With rst = 0 a word read at a register's offset puts its data on the bus before the sequencer's action. -/
theorem step_of_read {s : State} {off : BitVec 5} {r : Reg}
    (hnow : s.hostNow = { rst := false, access := some (.read .word off) }) (hr : accessReg .word off = .ok r) :
    step s = sequencerTick (busRead r s.openTick) := by
  simp [step, tick, hnow, runTick, hr]

/-- With rst = 0 a word write at a register's offset is the rest of the tick. -/
theorem step_of_write {s : State} {off : BitVec 5} {v : BusWord} {r : Reg}
    (hnow : s.hostNow = { rst := false, access := some (.write .word off v) }) (hr : accessReg .word off = .ok r) :
    step s = writeTick r v s.openTick := by
  simp [step, tick, hnow, runTick, hr]

theorem sequencerTick_of_halted {s : State} (h : s.flt = true) : sequencerTick s = .next s := by
  simp [sequencerTick, h]

theorem sequencerTick_of_not_busy {s : State} (h : s.busy = false) : sequencerTick s = .next s := by
  simp [sequencerTick, h]

theorem sequencerTick_of_busy {s : State} {i : Instr} (h : s.Busy) (hd : decodeWord s.cur = some i) :
    sequencerTick s = exec i s := by
  simp [sequencerTick, h.1, h.2, hd]

theorem cmdWrite_of_idle {s : State} {v : BusWord} {i : Instr} (h : s.Idle) (hd : decode v = some i) :
    cmdWrite v s = exec i s := by
  simp [cmdWrite, h.1, h.2, hd]

section
variable {s : State} (v : BusWord)

/-- A halted block takes no CFG write (R43, R119). -/
theorem cfgWriteTick_of_halted (h : s.flt = true) : writeTick .cfg v s = .next s := by
  simp [writeTick, cfgWrite, sequencerTick_of_halted h, h]

/-- A CFG write to a busy block faults, and the halted block then does nothing (R43, R121). -/
theorem cfgWriteTick_of_busy (h : s.Busy) :
    writeTick .cfg v s = .next (raiseFault .cfgWriteBusy (zext32 (lowHalf v)) s) := by
  simpa [writeTick, cfgWrite, h.1, h.2] using sequencerTick_of_halted (raiseFault_flt .cfgWriteBusy _ s)

/-- A CFG write to an idle block sets the three bits, and the idle block then does nothing (R43, R128). -/
theorem cfgWriteTick_of_idle (h : s.Idle) :
    writeTick .cfg v s = .next { s with strat := v.getLsbD 0, framer := v.getLsbD 1, longWait := v.getLsbD 2 } := by
  simp [writeTick, cfgWrite, h.1, h.2, sequencerTick_of_not_busy]

end

/-! ### Accesses and commands at the boundary -/

/-- Settles O20: both kinds of foreign access are refused before anything else of the tick. -/
theorem otherAccessesAreRefused : Obligations.OtherAccessesAreRefused := by
  intro s size off v b q hq
  have haccess : s.HostAccesses size off := by
    rcases hq with h | h
    · exact .inl (by rw [hostNow_of_cons h])
    · exact .inr ⟨v, by rw [hostNow_of_cons h]⟩
  refine ⟨fun hsize => step_of_refused haccess (accessReg_of_subword off hsize), ?_⟩
  rintro rfl halign
  exact step_of_refused haccess (accessReg_of_misaligned halign)

/-- Settles O9: on an idle block the CMD write hands the decoded command to exec. -/
theorem stepRunsTheWrittenCommand : Obligations.StepRunsTheWrittenCommand := by
  intro s q v i hidle hq hdec
  rw [step_of_write (r := .cmd) (hostNow_of_cons hq) rfl, ← openTick_of_cons hq]
  exact cmdWrite_of_idle hidle hdec

/-- Settles O10: without a host access the tick is the sequencer's action. -/
theorem stepContinuesTheRunningCommand : Obligations.StepContinuesTheRunningCommand := by
  intro s i hbusy hquiet hdec
  rw [step_of_quiet hquiet]
  exact sequencerTick_of_busy hbusy hdec

/-- Settles O19: each of these registers leaves the whole of a written tick to the sequencer. -/
theorem writesToReadOnlyRegistersHaveNoEffect : Obligations.WritesToReadOnlyRegistersHaveNoEffect := by
  intro s q off v hoff
  obtain ⟨r, hr, hdead⟩ : ∃ r, accessReg .word off = .ok r ∧ ∀ t, writeTick r v t = sequencerTick t := by
    simp only [List.mem_cons, List.not_mem_nil, or_false] at hoff
    rcases hoff with rfl | rfl | rfl | rfl | rfl | rfl <;> exact ⟨_, rfl, fun _ => rfl⟩
  rw [step_of_write rfl hr, hdead, step_of_quiet ⟨rfl, rfl⟩]
  rfl

/-! ### The read data and the count of BUF reads take no part in the sequencer's action (R48) -/

/-- The state with other read data on the bus and another count of BUF reads. -/
def State.withRead (d : Option BusWord) (n : Nat) (s : State) : State := { s with rdata := d, bufReads := n }

section
variable (s : State) (d : Option BusWord) (n : Nat)

@[simp] theorem withRead_act : (s.withRead d n).act = s.act := rfl
@[simp] theorem withRead_oq : (s.withRead d n).oq = s.oq := rfl
@[simp] theorem withRead_kph : (s.withRead d n).kph = s.kph := rfl
@[simp] theorem withRead_cph : (s.withRead d n).cph = s.cph := rfl
@[simp] theorem withRead_cur : (s.withRead d n).cur = s.cur := rfl

end

/-- A host read sets those two alone (R48). -/
theorem busRead_eq_withRead (r : Reg) (s : State) :
    busRead r s = s.withRead (some (s.regValue r)) (if r = .buf then s.bufReads + 1 else s.bufReads) := rfl

/-- k neither uses the read data and the count of BUF reads nor changes them. -/
def ReadBlind (k : State → State) : Prop :=
  ∀ (s : State) (d : Option BusWord) (n : Nat), k (s.withRead d n) = (k s).withRead d n

/-- The outcome with g applied to its next state. -/
def mapNext (g : State → State) : Result → Result
  | .next s => .next (g s)
  | .fault r => .fault r
  | .refused r => .refused r

theorem mapNext_eq_next {g : State → State} {r : Result} {t : State} (h : mapNext g r = .next t) :
    ∃ u, r = .next u ∧ t = g u := by
  cases r with
  | next u => cases h; exact ⟨u, rfl, rfl⟩
  | fault | refused => cases h

/-- The tick f neither uses the read data and the count of BUF reads nor changes them. -/
def ReadBlindTick (f : State → Result) : Prop :=
  ∀ (s : State) (d : Option BusWord) (n : Nat), f (s.withRead d n) = mapNext (State.withRead d n) (f s)

theorem ReadBlind.id : ReadBlind fun s => s := fun _ _ _ => rfl

theorem ReadBlind.comp {k l : State → State} (hk : ReadBlind k) (hl : ReadBlind l) : ReadBlind fun s => k (l s) :=
  fun s d n => (congrArg k (hl s d n)).trans (hk (l s) d n)

theorem ReadBlind.ite {c : State → Prop} [DecidablePred c] {k l : State → State}
    (hc : ∀ s d n, c (State.withRead d n s) ↔ c s) (hk : ReadBlind k) (hl : ReadBlind l) :
    ReadBlind fun s => if c s then k s else l s := by
  intro s d n
  by_cases h : c s
  · simpa only [hc, h, if_true] using hk s d n
  · simpa only [hc, h, if_false] using hl s d n

theorem ReadBlind.next {k : State → State} (hk : ReadBlind k) : ReadBlindTick fun s => .next (k s) :=
  fun s d n => congrArg Host.Outcome.next (hk s d n)

theorem ReadBlindTick.comp {f : State → Result} {k : State → State} (hf : ReadBlindTick f) (hk : ReadBlind k) :
    ReadBlindTick fun s => f (k s) :=
  fun s d n => (congrArg f (hk s d n)).trans (hf (k s) d n)

theorem ReadBlindTick.ite {c : State → Prop} [DecidablePred c] {f g : State → Result}
    (hc : ∀ s d n, c (State.withRead d n s) ↔ c s) (hf : ReadBlindTick f) (hg : ReadBlindTick g) :
    ReadBlindTick fun s => if c s then f s else g s := by
  intro s d n
  by_cases h : c s
  · simpa only [hc, h, if_true] using hf s d n
  · simpa only [hc, h, if_false] using hg s d n

/-! #### Observations and passes -/

theorem answers_withRead (s : State) (d : Option BusWord) (n : Nat) (line : Line) :
    (s.withRead d n).answers line = s.answers line := by
  cases line <;> rfl

theorem observed_withRead (s : State) (d : Option BusWord) (n : Nat) (line : Line) :
    (s.withRead d n).observed line = s.observed line := by
  simp only [State.observed, answers_withRead]
  rfl

theorem edgeEnds_withRead (s : State) (d : Option BusWord) (n : Nat) (e : Edge) (line : Line) :
    (s.withRead d n).edgeEnds e line = s.edgeEnds e line := by
  simp only [State.edgeEnds, observed_withRead]
  rfl

theorem readBlind_afterObs (line : Line) : ReadBlind fun s => s.afterObs line := by
  intro s d n
  simp only [State.afterObs, answers_withRead]
  cases s.answers line with
  | nil => rfl
  | cons => cases line <;> rfl

theorem readBlind_edgeStep (e : Edge) (line : Line) : ReadBlind fun s => s.edgeStep e line := by
  intro s d n
  simp only [State.edgeStep, readBlind_afterObs line s d n, observed_withRead]
  rfl

theorem readBlind_storeBit (p : Pass) : ReadBlind (storeBit p) := by
  intro s d n
  simp only [storeBit, readBlind_afterObs .data s d n, observed_withRead]
  rfl

theorem readBlind_afterLatch (p : Pass) : ReadBlind (afterLatch p) :=
  .ite (fun _ _ _ => Iff.rfl) (.ite (fun _ _ _ => Iff.rfl) (fun _ _ _ => rfl) (fun _ _ _ => rfl)) (fun _ _ _ => rfl)

theorem readBlind_startPass (p : Pass) : ReadBlind (startPass p) :=
  .ite (fun _ _ _ => Iff.rfl) (fun _ _ _ => rfl)
    ((readBlind_afterLatch p).comp (l := fun s => { s with bi := 0, ews := .pre }) fun _ _ _ => rfl)

theorem readBlind_nextBit (p : Pass) : ReadBlind (nextBit p) :=
  .ite (fun _ _ _ => Iff.rfl) (fun _ _ _ => rfl) (fun _ _ _ => rfl)

/-- An observation of a wait, with what follows the wait's end. -/
theorem ReadBlind.edgeWait {k : State → State} (hk : ReadBlind k) (e : Edge) (line : Line) :
    ReadBlind fun s => if s.edgeEnds e line then k (s.edgeStep e line) else s.edgeStep e line :=
  .ite (fun s d n => by rw [edgeEnds_withRead s d n]) (hk.comp (readBlind_edgeStep e line)) (readBlind_edgeStep e line)

theorem readBlindTick_passTick {p : Pass} {k : State → State} (hk : ReadBlind k) : ReadBlindTick (passTick p k) := by
  intro s d n
  simp only [passTick, withRead_act]
  cases s.act with
  | accept | wait | send | delay | spin => rfl
  | latch => exact ((readBlind_afterLatch p).edgeWait .falling .latch).next s d n
  | clock =>
    exact (ReadBlind.edgeWait (k := fun s => { s with act := .data }) (fun _ _ _ => rfl) .falling .clock).next s d n
  | data =>
    exact (ReadBlind.ite (c := fun s => p.n ≤ s.bi + 1) (fun _ _ _ => Iff.rfl) (hk.comp (readBlind_storeBit p))
      ((readBlind_nextBit p).comp (readBlind_storeBit p))).next s d n

theorem readBlindTick_sampleTick (p : Pass) : ReadBlindTick (sampleTick p) := by
  intro s d n
  simp only [sampleTick, withRead_act]
  cases s.act with
  | accept => exact (readBlind_startPass p).next s d n
  | wait | latch | clock | data | spin | send | delay =>
    exact readBlindTick_passTick (k := complete) (fun _ _ _ => rfl) s d n

/-! #### Emissions and delays -/

theorem readBlind_guardWritten {k : State → State} (hk : ReadBlind k) (l : State → List Nat)
    (hl : ∀ s d n, l (State.withRead d n s) = l s) : ReadBlind fun s => guardWritten (l s) k s := by
  intro s d n
  have hfirst : (s.withRead d n).firstUnwritten (l s) = s.firstUnwritten (l s) := rfl
  simp only [guardWritten, hl, hfirst]
  cases s.firstUnwritten (l s) with
  | none => exact hk s d n
  | some i => rfl

theorem readBlind_queueBytes {f : State → List Byte} (hf : ∀ s d n, f (State.withRead d n s) = f s) :
    ReadBlind (queueBytes f) := by
  intro s d n
  simp only [queueBytes, hf]
  rfl

theorem readBlindTick_sendTick {k : State → State} (hk : ReadBlind k) : ReadBlindTick (sendTick k) := by
  intro s d n
  simp only [sendTick, withRead_act, withRead_oq]
  cases s.act with
  | send =>
    rcases s.oq with _ | ⟨b, _ | ⟨c, rest⟩⟩
    · rfl
    · exact (hk.comp (l := fun s => ({ s with oq := [], act := .send } : State).transmit b)
        fun _ _ _ => rfl).next s d n
    · rfl
  | accept | wait | latch | clock | data | spin | delay => rfl

theorem readBlindTick_emitTick {l : State → List Nat} {f : State → List Byte}
    (hl : ∀ s d n, l (State.withRead d n s) = l s) (hf : ∀ s d n, f (State.withRead d n s) = f s) :
    ReadBlindTick (emitTick l f) := by
  intro s d n
  simp only [emitTick, withRead_act]
  cases s.act with
  | accept => exact (readBlind_guardWritten (readBlind_queueBytes hf) l hl).next s d n
  | wait | latch | clock | data | spin | send | delay =>
    exact readBlindTick_sendTick (k := complete) (fun _ _ _ => rfl) s d n

theorem readBlind_startDelay {k : State → State} (hk : ReadBlind k) : ReadBlind (startDelay k) :=
  .ite (fun _ _ _ => Iff.rfl) (hk.comp (l := fun s => { s with dc := 0 }) fun _ _ _ => rfl) (fun _ _ _ => rfl)

theorem readBlindTick_delayTick {k : State → State} (hk : ReadBlind k) : ReadBlindTick (delayTick k) := by
  intro s d n
  simp only [delayTick, withRead_act]
  cases s.act with
  | delay =>
    exact (ReadBlind.ite (c := fun s => s.dc - 1 = 0) (fun _ _ _ => Iff.rfl)
      (hk.comp (l := fun s => { s with dc := s.dc - 1, act := .delay }) fun _ _ _ => rfl)
      (l := fun s => { s with dc := s.dc - 1, act := .delay }) (fun _ _ _ => rfl)).next s d n
  | accept | wait | latch | clock | data | spin | send => rfl

/-! #### Captures and cycles -/

theorem readBlind_startCapture : ReadBlind startCapture :=
  fun s d n => readBlind_startPass s.basePass { s with fl := false, kph := .pass1 } d n

theorem readBlind_startCycle : ReadBlind startCycle :=
  fun s d n => readBlind_startCapture { s with is := true, cph := .b } d n

theorem readBlind_classifyFrame {k : State → State} (hk : ReadBlind k) : ReadBlind (classifyFrame k) :=
  .ite (fun _ _ _ => Iff.rfl) (fun s d n => readBlind_startPass s.extPass { s with ext := true, kph := .pass2 } d n)
    (hk.comp (l := fun s => { s with ext := false }) fun _ _ _ => rfl)

theorem readBlind_afterBasePass {k : State → State} (hk : ReadBlind k) : ReadBlind (afterBasePass k) :=
  (readBlind_guardWritten (readBlind_classifyFrame hk) (fun _ => markerEntries) fun _ _ _ => rfl).comp
    (l := fun s => { s with kph := .classify }) fun _ _ _ => rfl

theorem readBlind_afterExtPass {k : State → State} (hk : ReadBlind k) : ReadBlind (afterExtPass k) :=
  hk.comp (l := fun s => { s with fl := true }) fun _ _ _ => rfl

theorem readBlindTick_captureTick {k : State → State} (hk : ReadBlind k) : ReadBlindTick (captureTick k) := by
  intro s d n
  simp only [captureTick, withRead_kph]
  cases s.kph with
  | pass1 => exact readBlindTick_passTick (readBlind_afterBasePass hk) s d n
  | classify => rfl
  | pass2 => exact readBlindTick_passTick (readBlind_afterExtPass hk) s d n

theorem frameBytes_withRead (s : State) (d : Option BusWord) (n : Nat) :
    (s.withRead d n).frameBytes = s.frameBytes := rfl

theorem readBlind_afterCapture : ReadBlind afterCapture :=
  fun s d n => readBlind_guardWritten (readBlind_queueBytes frameBytes_withRead) (fun _ => s.frameEntries)
    (fun _ _ _ => rfl) { s with is := false, cph := .d } d n

theorem readBlind_afterEmission {k : State → State} (hk : ReadBlind k) : ReadBlind (afterEmission k) :=
  (readBlind_startDelay hk).comp (l := fun s => { s with cph := .e }) fun _ _ _ => rfl

theorem readBlindTick_cycleTick {k : State → State} (hk : ReadBlind k) : ReadBlindTick (cycleTick k) := by
  intro s d n
  simp only [cycleTick, withRead_act, withRead_cph]
  cases s.act with
  | accept => exact readBlind_startCycle.next s d n
  | wait | latch | clock | data | spin | send | delay =>
    cases s.cph with
    | a | c => rfl
    | b => exact readBlindTick_captureTick readBlind_afterCapture s d n
    | d => exact readBlindTick_sendTick (readBlind_afterEmission hk) s d n
    | e => exact readBlindTick_delayTick hk s d n

/-! #### Commands and the sequencer -/

theorem readBlindTick_command {i : Instr} {f : State → Result} (hf : ReadBlindTick f) : ReadBlindTick (command i f) :=
  .ite (fun _ _ _ => Iff.rfl) ReadBlind.id.next <| .ite (fun _ _ _ => Iff.rfl) hf <|
    .ite (fun _ _ _ => Iff.rfl) (hf.comp (k := accept i) fun _ _ _ => rfl)
      (ReadBlind.next (k := raiseFault .operandRange (zext32 (encode i))) fun _ _ _ => rfl)

theorem readBlindTick_singleTick {k : State → State} (hk : ReadBlind k) : ReadBlindTick (singleTick k) := by
  intro s d n
  simp only [singleTick, withRead_act]
  cases s.act with
  | accept => exact (ReadBlind.comp (k := complete) (fun _ _ _ => rfl) hk).next s d n
  | wait | latch | clock | data | spin | send | delay => rfl

theorem readBlindTick_waitTick (e : Edge) (line : Line) : ReadBlindTick (waitTick e line) := by
  intro s d n
  simp only [waitTick, withRead_act]
  cases s.act with
  | wait => exact (ReadBlind.edgeWait (k := complete) (fun _ _ _ => rfl) e line).next s d n
  | accept | latch | clock | data | spin | send | delay => rfl

theorem readBlindTick_dlyTick : ReadBlindTick dlyTick := by
  intro s d n
  simp only [dlyTick, withRead_act]
  cases s.act with
  | accept => exact (readBlind_startDelay (k := complete) fun _ _ _ => rfl).next s d n
  | wait | latch | clock | data | spin | send | delay =>
    exact readBlindTick_delayTick (k := complete) (fun _ _ _ => rfl) s d n

theorem readBlindTick_capTick : ReadBlindTick capTick := by
  intro s d n
  simp only [capTick, withRead_act]
  cases s.act with
  | accept => exact readBlind_startCapture.next s d n
  | wait | latch | clock | data | spin | send | delay =>
    exact readBlindTick_captureTick (k := complete) (fun _ _ _ => rfl) s d n

theorem readBlindTick_exec (i : Instr) : ReadBlindTick (exec i) := by
  cases i with
  | nop | irqoff | irqon => exact readBlindTick_command (readBlindTick_singleTick fun _ _ _ => rfl)
  | wfe line | wre line => exact readBlindTick_command (readBlindTick_waitTick _ line)
  | smps | smpl => exact readBlindTick_command (readBlindTick_sampleTick _)
  | det =>
    exact readBlindTick_command (readBlindTick_singleTick
      (readBlind_guardWritten (k := recordClass) (fun _ _ _ => rfl) (fun _ => markerEntries) fun _ _ _ => rfl))
  | emc | emd | emf => exact readBlindTick_command (readBlindTick_emitTick (fun _ _ _ => rfl) fun _ _ _ => rfl)
  | dly => exact readBlindTick_command readBlindTick_dlyTick
  | cap => exact readBlindTick_command readBlindTick_capTick
  | cycle => exact readBlindTick_command (readBlindTick_cycleTick fun _ _ _ => rfl)
  | run => exact readBlindTick_command (readBlindTick_cycleTick readBlind_startCycle)

theorem readBlindTick_sequencerTick : ReadBlindTick sequencerTick := by
  refine .ite (fun _ _ _ => Iff.rfl) ReadBlind.id.next (.ite (fun _ _ _ => Iff.rfl) ?_ ReadBlind.id.next)
  intro s d n
  simp only [withRead_cur]
  cases decodeWord s.cur with
  | none => rfl
  | some i => exact readBlindTick_exec i s d n

/-- The sequencer's action after a host read is the action without it, then with the read's data and count (R48). -/
theorem sequencerTick_busRead (r : Reg) (s : State) :
    sequencerTick (busRead r s) = mapNext
      (State.withRead (some (s.regValue r)) (if r = .buf then s.bufReads + 1 else s.bufReads)) (sequencerTick s) := by
  rw [busRead_eq_withRead, readBlindTick_sequencerTick]

/-! ### What a host read returns -/

/-- The port and the host's list are in no register. -/
theorem regValue_openTick (r : Reg) (s : State) : s.openTick.regValue r = s.regValue r := rfl

/-- The data of a read are the register's word as the block stands at the boundary, whatever the tick then does. -/
theorem rdata_of_read {s t : State} {off : BitVec 5} {r : Reg}
    (hnow : s.hostNow = { rst := false, access := some (.read .word off) }) (hr : accessReg .word off = .ok r)
    (h : step s = .next t) : t.rdata = some (s.regValue r) := by
  rw [step_of_read hnow hr, sequencerTick_busRead] at h
  obtain ⟨u, -, rfl⟩ := mapNext_eq_next h
  exact congrArg some (regValue_openTick r s)

/-! ### The register words as numbers -/

/-- A bit put below a number's bits doubles the number and adds the bit. -/
theorem ofNat_append_ofBool {m : Nat} (k : Nat) (b : Bool) :
    BitVec.ofNat m k ++ BitVec.ofBool b = BitVec.ofNat (m + 1) (2 * k + b.toNat) := by
  apply BitVec.eq_of_toNat_eq
  have hb : b.toNat < 2 ^ 1 := b.toNat_lt
  have hhalf : (2 * k + b.toNat) / 2 = k := by omega
  simp only [BitVec.toNat_append, BitVec.toNat_ofNat, BitVec.toNat_ofBool]
  rw [← Nat.shiftLeft_add_eq_or_of_lt hb, Nat.shiftLeft_eq, Nat.pow_succ' (n := m), Nat.mod_mul, hhalf]
  omega

/-- The STATUS word field by field (R42). -/
theorem statusWord_eq (s : State) :
    s.statusWord = BitVec.ofNat 32 (s.busy.toNat + 2 * s.is.toNat + 4 * s.fl.toNat + 8 * s.ext.toNat
      + 16 * s.flt.toNat + 256 * s.fcode.bits.toNat) := by
  have hcode : 0#21 ++ s.fcode.bits ++ 0#3 = BitVec.ofNat 27 (8 * s.fcode.bits.toNat) := by
    cases s.fcode <;> rfl
  simp only [State.statusWord, hcode, ofNat_append_ofBool]
  congr 1
  ring

/-- The CFG word bit by bit (R43). -/
theorem cfgWord_eq (s : State) :
    s.cfgWord = BitVec.ofNat 32 (s.strat.toNat + 2 * s.framer.toNat + 4 * s.longWait.toNat) := by
  simp only [State.cfgWord, ofNat_append_ofBool]
  congr 1
  ring

/-- FINFO of a rejected write is the value's low half (R114). -/
theorem zext32_lowHalf (v : BusWord) : zext32 (lowHalf v) = BitVec.ofNat 32 (v.toNat % 65536) := by
  apply BitVec.eq_of_toNat_eq
  simp [zext32, lowHalf]

/-- A written entry shows in its bit, whatever the free bits are (R44). -/
theorem bufWord_of_written {s : State} {i : Nat} (h : s.written i = true) : s.bufWord.getLsbD i = s.bufRead i := by
  have hi : s.wr.getLsbD i = true := h
  simp [State.bufWord, State.bufRead, hi]

/-! ### Host reads and the CFG register -/

/-- Settles O16: each of these words is a function of the block at the boundary. -/
theorem hostReadShowsTheBoundaryState : Obligations.HostReadShowsTheBoundaryState := by
  intro s t off hnow h
  have hread : ∀ r, accessReg .word off = .ok r → t.rdata = some (s.regValue r) :=
    fun _ hr => rdata_of_read hnow hr h
  refine ⟨?_, ?_, ?_, fun hoff => ?_⟩
  · rintro rfl
    exact hread .cmd rfl
  · rintro rfl
    rw [← statusWord_eq]
    exact hread .status rfl
  · rintro rfl
    exact hread .finfo rfl
  · simp only [List.mem_cons, List.not_mem_nil, or_false] at hoff
    rcases hoff with rfl | rfl | rfl <;> exact hread .reserved rfl

/-- Settles O17: the word on the bus is BUF's, whose written bits no free bit reaches. -/
theorem bufReadShowsWrittenEntries : Obligations.BufReadShowsWrittenEntries := by
  intro s t hnow h
  exact ⟨s.bufWord, rdata_of_read (r := .buf) hnow rfl h, fun _ _ hw => bufWord_of_written hw⟩

/-- Settles O14: the write comes before the sequencer's action, which a halted, faulted or idle block does not take. -/
theorem cfgRegisterBehaviour : Obligations.CfgRegisterBehaviour := by
  refine ⟨fun s q v hq => ?_, fun s t hnow h => ?_⟩
  · rw [step_of_write (r := .cfg) (hostNow_of_cons hq) rfl, ← zext32_lowHalf, openTick_of_cons hq]
    exact ⟨fun hhalted => cfgWriteTick_of_halted v hhalted, fun hbusy => cfgWriteTick_of_busy v hbusy,
      fun hidle => cfgWriteTick_of_idle v hidle⟩
  · rw [← cfgWord_eq]
    exact rdata_of_read (r := .cfg) hnow rfl h

/-- Settles O18: a read puts its data and count on the state the sequencer acts on, and no action uses them. -/
theorem hostReadHasNoSideEffect : Obligations.HostReadHasNoSideEffect := by
  refine ⟨fun s off hbusy halign hnow => ?_, fun s q off halign => ?_⟩
  · obtain ⟨r, hr⟩ := accessReg_word_of_aligned halign
    refine ⟨s.regValue r, if r = .buf then s.bufReads + 1 else s.bufReads, ?_⟩
    rw [step_of_read hnow hr]
    exact sequencerTick_of_not_busy hbusy
  · obtain ⟨r, hr⟩ := accessReg_word_of_aligned halign
    intro reading quiet
    have hbuf : off = 0x0C ↔ r = .buf := by rw [← accessReg_word_eq_buf_iff, hr, Except.ok.injEq]
    have hreading : step reading = sequencerTick (busRead r quiet.openTick) := step_of_read rfl hr
    have hquiet : step quiet = sequencerTick quiet.openTick := step_of_quiet ⟨rfl, rfl⟩
    refine ⟨s.regValue r, fun t h => ?_, fun t h => ?_⟩
    · rw [hreading, sequencerTick_busRead, ← hquiet, h]
      simp only [hbuf]
      rfl
    · have hback : quiet.openTick = (busRead r quiet.openTick).withRead none s.bufReads := rfl
      rw [hquiet, hback, readBlindTick_sequencerTick, ← hreading, h]
      rfl

/-! ### The sequencer always has its next action -/

/-- Every tick of the command i from a place in it has a next state. -/
def TickAnswers (i : Instr) (f : State → Result) : Prop :=
  ∀ s : State, s.act = .accept ∨ s.At i → ∃ t, f s = .next t

/-- A command whose ticks answer answers on a halted and on an idle block too, be it in range or not (R58, R119). -/
theorem command_answers {i : Instr} {f : State → Result} {s : State} (hf : TickAnswers i f) (hs : s.Inv)
    (hcur : s.busy = true → decodeWord s.cur = some i) : ∃ t, command i f s = .next t := by
  unfold command
  split
  · exact ⟨_, rfl⟩
  · next hflt =>
    split
    · next hbusy =>
      obtain ⟨-, hplace⟩ := hs.runs ⟨Bool.eq_false_of_not_eq_true hflt, hbusy⟩ (hcur hbusy)
      exact hf s hplace
    · split
      · exact hf _ (.inl rfl)
      · exact ⟨_, rfl⟩

/-- A command with no place after its acceptance tick answers in that tick. -/
theorem singleTick_answers {i : Instr} (k : State → State) (hAt : ∀ s : State, ¬ s.At i) :
    TickAnswers i (singleTick k) := by
  intro s hp
  have ha : s.act = .accept := hp.resolve_right (hAt s)
  simp [singleTick, ha]

theorem waitTick_answers {i : Instr} (e : Edge) (line : Line) (hAt : ∀ s : State, s.At i ↔ s.act = .wait) :
    TickAnswers i (waitTick e line) := by
  intro s hp
  rw [hAt] at hp
  rcases hp with ha | ha <;> simp [waitTick, ha]

/-- At a place in a pass the next action is one a pass has (R78, R81). -/
theorem passTick_answers {p : Pass} (k : State → State) {s : State} (hp : s.InPass p) :
    ∃ t, passTick p k s = .next t := by
  cases ha : s.act with
  | latch | clock | data | spin => simp [passTick, ha]
  | accept | wait | send | delay => simp [State.InPass, ha] at hp

theorem sampleTick_answers {i : Instr} {p : Pass} (hAt : ∀ s : State, s.At i ↔ s.InPass p) :
    TickAnswers i (sampleTick p) := by
  intro s hp
  unfold sampleTick
  split
  · exact ⟨_, rfl⟩
  · next ha => exact passTick_answers complete ((hAt s).mp (hp.resolve_left ha))

/-- While bytes wait one can be sent. -/
theorem sendTick_answers (k : State → State) {s : State} (hp : s.InEmission) : ∃ t, sendTick k s = .next t := by
  obtain ⟨ha, hq⟩ := hp
  rcases ho : s.oq with _ | ⟨b, _ | ⟨c, rest⟩⟩
  · exact absurd ho hq
  · simp [sendTick, ha, ho]
  · simp [sendTick, ha, ho]

theorem emitTick_answers {i : Instr} (c : State → List Nat) (f : State → List Byte)
    (hAt : ∀ s : State, s.At i ↔ s.InEmission) : TickAnswers i (emitTick c f) := by
  intro s hp
  unfold emitTick
  split
  · exact ⟨_, rfl⟩
  · next ha => exact sendTick_answers complete ((hAt s).mp (hp.resolve_left ha))

theorem delayTick_answers (k : State → State) {s : State} (hp : s.InDelay) : ∃ t, delayTick k s = .next t := by
  obtain ⟨ha, -⟩ := hp
  simp [delayTick, ha]

theorem dlyTick_answers : TickAnswers .dly dlyTick := by
  intro s hp
  unfold dlyTick
  split
  · exact ⟨_, rfl⟩
  · next ha => exact delayTick_answers complete (hp.resolve_left ha)

/-- At a place in a capture a pass runs: the classification holds no timed action (R103). -/
theorem captureTick_answers (k : State → State) {s : State} (hp : s.InCapture) :
    ∃ t, captureTick k s = .next t := by
  unfold captureTick
  split
  · next hk =>
    obtain ⟨-, hpass⟩ := (inCapture_pass1 hk).mp hp
    exact passTick_answers _ hpass
  · next hk =>
    obtain ⟨-, -, -, hpass⟩ := (inCapture_pass2 hk).mp hp
    exact passTick_answers _ hpass
  · next hk => simp [State.InCapture, hk] at hp

theorem capTick_answers : TickAnswers .cap capTick := by
  intro s hp
  unfold capTick
  split
  · exact ⟨_, rfl⟩
  · next ha => exact captureTick_answers complete (hp.resolve_left ha)

/-- At a place in a cycle a capture, an emission or a delay runs: steps (a) and (c) hold no timed action (R105). -/
theorem cycleTick_answers {i : Instr} (k : State → State) (hAt : ∀ s : State, s.At i ↔ s.InCycle) :
    TickAnswers i (cycleTick k) := by
  intro s hp
  unfold cycleTick
  split
  · exact ⟨_, rfl⟩
  · next hc ha =>
    obtain ⟨-, hcap⟩ := (inCycle_b hc).mp ((hAt s).mp (hp.resolve_left ha))
    exact captureTick_answers _ hcap
  · next hc ha =>
    obtain ⟨-, -, hsend⟩ := (inCycle_d hc).mp ((hAt s).mp (hp.resolve_left ha))
    exact sendTick_answers _ hsend
  · next hc ha =>
    obtain ⟨-, -, hdelay⟩ := (inCycle_e hc).mp ((hAt s).mp (hp.resolve_left ha))
    exact delayTick_answers _ hdelay
  · next ha hb hd he =>
    have hcycle := (hAt s).mp (hp.resolve_left ha)
    cases hc : s.cph with
    | a | c => simp [State.InCycle, hc] at hcycle
    | b => exact (hb hc).elim
    | d => exact (hd hc).elim
    | e => exact (he hc).elim

theorem exec_answers {i : Instr} {s : State} (hs : s.Inv) (hcur : s.busy = true → decodeWord s.cur = some i) :
    ∃ t, exec i s = .next t := by
  cases i with
  | nop | det | irqoff | irqon => exact command_answers (singleTick_answers _ fun _ => id) hs hcur
  | wfe line | wre line => exact command_answers (waitTick_answers _ line fun _ => Iff.rfl) hs hcur
  | smps | smpl => exact command_answers (sampleTick_answers fun _ => Iff.rfl) hs hcur
  | emc | emd | emf => exact command_answers (emitTick_answers _ _ fun _ => Iff.rfl) hs hcur
  | dly => exact command_answers dlyTick_answers hs hcur
  | cap => exact command_answers capTick_answers hs hcur
  | cycle | run => exact command_answers (cycleTick_answers _ fun _ => Iff.rfl) hs hcur

/-- In a state of the invariant CUR names a command whenever BUSY is 1, and that command's tick answers. -/
theorem sequencerTick_answers {s : State} (hs : s.Inv) : ∃ t, sequencerTick s = .next t := by
  cases hf : s.flt with
  | true => exact ⟨s, sequencerTick_of_halted hf⟩
  | false =>
    cases hb : s.busy with
    | false => exact ⟨s, sequencerTick_of_not_busy hb⟩
    | true =>
      obtain ⟨i, hd, -⟩ := hs.placed hb
      rw [sequencerTick_of_busy ⟨hf, hb⟩ hd]
      exact exec_answers hs fun _ => hd

theorem cmdWrite_answers {s : State} (v : BusWord) (hs : s.Inv) : ∃ t, cmdWrite v s = .next t := by
  unfold cmdWrite
  split
  · exact ⟨_, rfl⟩
  · split
    · exact ⟨_, rfl⟩
    · next hidle =>
      split
      · exact ⟨_, rfl⟩
      · exact exec_answers hs fun hb => absurd hb hidle

theorem writeTick_answers {s : State} (r : Reg) (v : BusWord) (hs : s.Inv) : ∃ t, writeTick r v s = .next t := by
  cases r with
  | cmd => exact cmdWrite_answers v hs
  | cfg => exact sequencerTick_answers (cfgWrite_inv hs)
  | status | buf | finfo | reserved => exact sequencerTick_answers hs

/-- A tick in which the host does nothing has a next state. -/
theorem step_answers_of_no_access {s : State} (hs : s.Inv) (ha : s.hostNow.access = none) :
    ∃ t, step s = .next t := by
  unfold step tick
  rw [ha]
  split
  · exact ⟨_, rfl⟩
  · exact sequencerTick_answers (openTick_inv hs)

/-- A tick whose host access reaches a register has a next state. -/
theorem step_answers_of_access {s : State} {size : AccessSize} {off : BitVec 5} {r : Reg} (hs : s.Inv)
    (haccess : s.HostAccesses size off) (hr : accessReg size off = .ok r) : ∃ t, step s = .next t := by
  unfold step tick
  rcases haccess with h | ⟨v, h⟩ <;> rw [h] <;> split
  · simp [resetTick, hr]
  · simpa only [runTick, hr] using sequencerTick_answers (busRead_inv (openTick_inv hs))
  · simp [resetTick, hr]
  · simpa only [runTick, hr] using writeTick_answers r v (openTick_inv hs)

/-- Settles O60: the invariant gives the sequencer its next action, so only an access that reaches no
register stops a step. -/
theorem stepStopsOnlyOnForeignAccesses : Obligations.StepStopsOnlyOnForeignAccesses := by
  intro s hs
  have haccess : s.hostNow.access = none ∨ ∃ size off, s.HostAccesses size off := by
    rcases h : s.hostNow.access with _ | ⟨size, off⟩ | ⟨size, off, v⟩
    · exact .inl rfl
    · exact .inr ⟨size, off, .inl h⟩
    · exact .inr ⟨size, off, .inr ⟨v, h⟩⟩
  rcases haccess with hnone | ⟨size, off, haccess⟩
  · exact .inl (step_answers_of_no_access hs hnone)
  · rcases accessReg_cases size off with ⟨r, hr⟩ | ⟨hsize, hr⟩ | ⟨halign, hr⟩
    · exact .inl (step_answers_of_access hs haccess hr)
    · exact .inr ⟨size, off, haccess, .inl ⟨hsize, step_of_refused haccess hr⟩⟩
    · exact .inr ⟨size, off, haccess, .inr ⟨halign, step_of_refused haccess hr⟩⟩

end Sys2Proof.Machine

namespace Sys2Proof

/-! ### A command word by its fields (R61 to R67) -/

/-- The zero upper half adds nothing to a command word's number (R9). -/
theorem zext32_toNat (cw : CmdWord) : (zext32 cw).toNat = cw.toNat :=
  BitVec.toNat_setWidth_of_le (by decide)

theorem lowHalf_toNat (v : BusWord) : (lowHalf v).toNat = v.toNat % 65536 := by
  simp [lowHalf, BitVec.extractLsb'_toNat]

/-- Bits 31:16 of a CMD value are zero when the value is below 2^16. -/
theorem upperHalf_eq_zero_iff (v : BusWord) : v.extractLsb' 16 16 = 0#16 ↔ v.toNat / 65536 = 0 := by
  have := v.isLt
  rw [← BitVec.toNat_inj]
  simp only [BitVec.extractLsb'_toNat, Nat.shiftRight_eq_div_pow, BitVec.toNat_ofNat]
  omega

/-- A command word with a zero upper half decodes as the word does (R59 case 1). -/
theorem decode_zext32 (cw : CmdWord) : decode (zext32 cw) = decodeWord cw := by
  have hlt := cw.isLt
  have hhigh : (zext32 cw).extractLsb' 16 16 = 0#16 := by
    rw [upperHalf_eq_zero_iff, zext32_toNat]
    omega
  have hlow : lowHalf (zext32 cw) = cw := by
    apply BitVec.eq_of_toNat_eq
    rw [lowHalf_toNat, zext32_toNat]
    omega
  rw [decode, if_pos hhigh, hlow]

/-- A decoded CMD value is a command word with a zero upper half (R59 case 1). -/
theorem word_of_decode {v : BusWord} {i : Instr} (h : decode v = some i) :
    ∃ cw, v = zext32 cw ∧ decodeWord cw = some i := by
  unfold decode at h
  split at h
  · next hhigh =>
    rw [upperHalf_eq_zero_iff] at hhigh
    refine ⟨lowHalf v, BitVec.eq_of_toNat_eq ?_, h⟩
    rw [zext32_toNat, lowHalf_toNat]
    omega
  · cases h

/-- Settles O4: the upper half of the written value is zero, and the lower half reads back. -/
theorem decodeReadsBackEncode : Obligations.DecodeReadsBackEncode := by
  intro i
  rw [decode_zext32, decodeWord_encode]

/-! ### What each format reads, and the operand bits it leaves no choice of -/

/-- Format N reads its command from zero operand bits (R62). -/
theorem decodeN_eq_some_iff {cw : CmdWord} {i j : Instr} :
    decodeN cw i = some j ↔ cwField cw 0 12 = 0 ∧ i = j := by
  simp [decodeN]

/-- Format W reads the line whose code the operand bits are (R63). -/
theorem line_of_decodeW {cw : CmdWord} {f : Line → Instr} {i : Instr} (h : decodeW cw f = some i) :
    ∃ line, i = f line ∧ cwField cw 0 12 = (0#10 ++ lineCode line : BitVec 12).toNat := by
  unfold decodeW at h
  split at h
  · next hzero =>
    obtain ⟨line, hline, rfl⟩ := Option.map_eq_some_iff.mp h
    have hcode := lineCode_of_lineOfCode hline
    rw [cwField_toNat] at hzero hcode
    have hbits : (0#10 ++ lineCode line : BitVec 12).toNat = (lineCode line).toNat := by cases line <;> rfl
    refine ⟨line, rfl, ?_⟩
    rw [cwField_toNat, hbits]
    omega
  · cases h

/-- Format F reads the fields the operand bits are put together from (R65). -/
theorem fields_of_decodeF {cw : CmdWord} {f : BitVec 5 → BitVec 6 → Instr} {i : Instr} (h : decodeF cw f = some i) :
    ∃ start count, i = f start count ∧ cwField cw 0 12 = (0#1 ++ count ++ start : BitVec 12).toNat := by
  unfold decodeF at h
  split at h
  · cases h
  · next h11 =>
    cases h
    refine ⟨_, _, rfl, ?_⟩
    simp only [cwBit_toNat, decide_eq_true_eq] at h11
    simp only [framingBits_toNat, cwField_toNat, BitVec.extractLsb'_toNat, Nat.shiftRight_eq_div_pow]
    omega

/-- The operand bits of any word are its four fields of format S put together (R64). -/
theorem cwField_eq_samplingBits (cw : CmdWord) :
    cwField cw 0 12 = (BitVec.ofBool (cw.getLsbD 11) ++ BitVec.ofBool (cw.getLsbD 10) ++ cw.extractLsb' 5 5
      ++ cw.extractLsb' 0 5 : BitVec 12).toNat := by
  have hbit : ∀ k, (cw.getLsbD k).toNat = cw.toNat / 2 ^ k % 2 := fun k => Nat.toNat_testBit cw.toNat k
  simp only [samplingBits_toNat, hbit, cwField_toNat, BitVec.extractLsb'_toNat, Nat.shiftRight_eq_div_pow]
  omega

/-- SMPS is read only where P is zero, as its operand bits have it (R64, R59 case 5). -/
theorem fields_of_decodeSmps {cw : CmdWord} {i : Instr} (h : decodeSmps cw = some i) :
    ∃ l idx nm1, i = .smps l idx nm1 ∧ cwField cw 0 12 = (operandBits (.smps l idx nm1)).toNat := by
  unfold decodeSmps at h
  split at h
  · cases h
  · next h10 =>
    cases h
    have hbits := cwField_eq_samplingBits cw
    rw [Bool.eq_false_of_not_eq_true h10] at hbits
    exact ⟨_, _, _, rfl, hbits⟩

/-- A word with the opcode and the operand bits of a command is its word (R61). -/
theorem eq_encode_of_fields {cw : CmdWord} {i : Instr} (hop : cwField cw 12 4 = (opcodeOf i).toNat)
    (hbits : cwField cw 0 12 = (operandBits i).toNat) : cw = encode i := by
  apply BitVec.eq_of_toNat_eq
  have := cw.isLt
  rw [cwField_toNat] at hop hbits
  rw [encode_toNat]
  omega

/-- A word that decodes to a command is that command's word (R61, R67). -/
theorem eq_encode_of_decodeWord {cw : CmdWord} {i : Instr} (h : decodeWord cw = some i) : cw = encode i := by
  unfold decodeWord at h
  split at h
  case h_1 hop | h_6 hop | h_9 hop | h_10 hop | h_11 hop | h_12 hop | h_13 hop | h_14 hop | h_15 hop =>
    obtain ⟨hbits, rfl⟩ := decodeN_eq_some_iff.mp h
    exact eq_encode_of_fields hop hbits
  case h_2 hop | h_3 hop =>
    obtain ⟨line, rfl, hbits⟩ := line_of_decodeW h
    exact eq_encode_of_fields hop hbits
  case h_4 hop =>
    obtain ⟨l, idx, nm1, rfl, hbits⟩ := fields_of_decodeSmps h
    exact eq_encode_of_fields hop hbits
  case h_5 hop =>
    cases h
    exact eq_encode_of_fields hop (cwField_eq_samplingBits cw)
  case h_7 hop | h_8 hop =>
    obtain ⟨start, count, rfl, hbits⟩ := fields_of_decodeF h
    exact eq_encode_of_fields hop hbits
  case h_16 => cases h

/-- Settles O5: the upper half is zero, and the opcode and each format's operand bits stand as the encoder puts them. -/
theorem encodeRestoresDecodedWord : Obligations.EncodeRestoresDecodedWord := by
  intro v i h
  obtain ⟨cw, rfl, hcw⟩ := word_of_decode h
  rw [eq_encode_of_decodeWord hcw]

/-! ### What the decoder refuses (R59) -/

theorem decodeN_eq_none_iff {cw : CmdWord} {i : Instr} : decodeN cw i = none ↔ cw.toNat % 4096 ≠ 0 := by
  simp [decodeN, cwField_toNat]

theorem lineOfCode_eq_none_iff {k : Nat} : lineOfCode k = none ↔ 3 ≤ k := by
  match k with
  | 0 | 1 | 2 | _ + 3 => simp [lineOfCode]

theorem decodeW_eq_none_iff {cw : CmdWord} {f : Line → Instr} :
    decodeW cw f = none ↔ cw.toNat / 4 % 1024 ≠ 0 ∨ cw.toNat % 4 = 3 := by
  unfold decodeW
  simp only [cwField_toNat]
  split
  · next hzero =>
    simp only [Option.map_eq_none_iff, lineOfCode_eq_none_iff]
    omega
  · next hzero => exact iff_of_true rfl (.inl hzero)

theorem decodeSmps_eq_none_iff {cw : CmdWord} : decodeSmps cw = none ↔ cw.toNat / 1024 % 2 = 1 := by
  unfold decodeSmps
  rw [cwBit_toNat]
  simp

theorem decodeF_eq_none_iff {cw : CmdWord} {f : BitVec 5 → BitVec 6 → Instr} :
    decodeF cw f = none ↔ cw.toNat / 2048 % 2 = 1 := by
  unfold decodeF
  rw [cwBit_toNat]
  simp

/-- A command word is refused in the cases 2 to 6 of R59, by its opcode. -/
theorem decodeWord_eq_none_iff (cw : CmdWord) :
    decodeWord cw = none ↔
      cw.toNat / 4096 % 16 = 0xF ∨
      (cw.toNat / 4096 % 16 ∈ [0x0, 0x5, 0x8, 0x9, 0xA, 0xB, 0xC, 0xD, 0xE] ∧ cw.toNat % 4096 ≠ 0) ∨
      (cw.toNat / 4096 % 16 ∈ [0x1, 0x2] ∧ (cw.toNat / 4 % 1024 ≠ 0 ∨ cw.toNat % 4 = 3)) ∨
      (cw.toNat / 4096 % 16 = 0x3 ∧ cw.toNat / 1024 % 2 = 1) ∨
      (cw.toNat / 4096 % 16 ∈ [0x6, 0x7] ∧ cw.toNat / 2048 % 2 = 1) := by
  rw [show cw.toNat / 4096 % 16 = cwField cw 12 4 from (cwField_toNat cw 12 4).symm]
  unfold decodeWord
  split
  case h_1 hop | h_6 hop | h_9 hop | h_10 hop | h_11 hop | h_12 hop | h_13 hop | h_14 hop | h_15 hop =>
    simp [hop, decodeN_eq_none_iff]
  case h_2 hop | h_3 hop => simp [hop, decodeW_eq_none_iff]
  case h_4 hop => simp [hop, decodeSmps_eq_none_iff]
  case h_5 hop => simp [hop, decodeSmpl]
  case h_7 hop | h_8 hop => simp [hop, decodeF_eq_none_iff]
  case h_16 =>
    -- The last arm is reached by no opcode from 0 to 0xE.
    have hlt : cwField cw 12 4 < 16 := BitVec.isLt _
    simp only [imp_false] at *
    exact iff_of_true trivial (.inl (by omega))

/-- Settles O6: a value with a zero upper half is refused as its command word is, any other at once. -/
theorem decoderRefusesExactlyIllegalValues : Obligations.DecoderRefusesExactlyIllegalValues := by
  intro v
  by_cases hhigh : v.extractLsb' 16 16 = 0#16
  · have hzero := (upperHalf_eq_zero_iff v).mp hhigh
    have hlow : (lowHalf v).toNat = v.toNat := by
      rw [lowHalf_toNat]
      omega
    rw [decode, if_pos hhigh, decodeWord_eq_none_iff, hlow]
    simp [hzero]
  · rw [decode, if_neg hhigh]
    exact iff_of_true rfl (.inl (mt (upperHalf_eq_zero_iff v).mpr hhigh))

/-! ### The range check over the word's fields (R60) -/

/-- The number a decoded CMD value is, by opcode and operand bits (R61). -/
theorem toNat_of_decode {v : BusWord} {i : Instr} (h : decode v = some i) :
    v.toNat = (opcodeOf i).toNat * 4096 + (operandBits i).toNat := by
  rw [← encode_toNat, ← zext32_toNat, ← encodeRestoresDecodedWord v i h]

/-- R60's fields of a value whose operand bits are those of a sampling command (R64). -/
theorem samplingOperands_of_toNat {n op : Nat} {l p : Bool} {idx nm1 : BitVec 5}
    (h : n = op * 4096 + (BitVec.ofBool l ++ BitVec.ofBool p ++ idx ++ nm1 : BitVec 12).toNat) :
    n / 32 % 32 = idx.toNat ∧ n % 32 = nm1.toNat := by
  rw [samplingBits_toNat] at h
  have := idx.isLt
  have := nm1.isLt
  omega

/-- R60's fields of a value whose operand bits are those of a framing command (R65). -/
theorem framingOperands_of_toNat {n op : Nat} {start : BitVec 5} {count : BitVec 6}
    (h : n = op * 4096 + (0#1 ++ count ++ start : BitVec 12).toNat) :
    n / 32 % 64 = count.toNat ∧ n % 32 = start.toNat := by
  rw [framingBits_toNat] at h
  have := start.isLt
  have := count.isLt
  omega

theorem passInRange_eq_false_iff {idx nm1 : BitVec 5} :
    passInRange idx nm1 = false ↔ idx.toNat + (nm1.toNat + 1) > 32 := by
  rw [← Bool.not_eq_true, passInRange_iff, not_le]

theorem frameInRange_eq_false_iff {start : BitVec 5} {count : BitVec 6} :
    frameInRange start count = false ↔ count.toNat > 32 ∨ start.toNat + count.toNat > 32 := by
  rw [← Bool.not_eq_true, frameInRange_iff, not_and_or, not_le, not_le]

/-- Settles O7: the value is its command's word, so its fields are the operands that the range check adds up. -/
theorem rangeCheckMatchesWordFields : Obligations.RangeCheckMatchesWordFields := by
  intro v i h
  have hv := toNat_of_decode h
  have hop : v.toNat / 4096 % 16 = (opcodeOf i).toNat := by
    have := (opcodeOf i).isLt
    have := (operandBits i).isLt
    omega
  simp only [hop]
  cases i with
  | smps l idx nm1 =>
    obtain ⟨hidx, hnm1⟩ := samplingOperands_of_toNat (p := false) hv
    simp [Instr.inRange, opcodeOf, passInRange_eq_false_iff, hidx, hnm1]
  | smpl l p idx nm1 =>
    obtain ⟨hidx, hnm1⟩ := samplingOperands_of_toNat hv
    simp [Instr.inRange, opcodeOf, passInRange_eq_false_iff, hidx, hnm1]
  | emc start count | emd start count =>
    obtain ⟨hcount, hstart⟩ := framingOperands_of_toNat hv
    simp [Instr.inRange, opcodeOf, frameInRange_eq_false_iff, hcount, hstart]
  | nop | wfe | wre | det | irqoff | irqon | dly | cap | emf | cycle | run => simp [Instr.inRange, opcodeOf]

/-- Settles O8: the decoder computes on each of the words. -/
theorem writtenOutWordsDecode : Obligations.WrittenOutWordsDecode := by
  unfold Obligations.WrittenOutWordsDecode
  decide

end Sys2Proof

namespace Sys2Proof.Machine

/-! ### Rejected writes, overruns and the first tick of a wait -/

theorem cmdWrite_of_illegal {s : State} {v : BusWord} (h : s.Idle) (hd : decode v = none) :
    cmdWrite v s = .next (raiseFault .illegalCommand (zext32 (lowHalf v)) s) := by
  simp [cmdWrite, h.1, h.2, hd]

theorem cmdWrite_of_busy {s : State} (v : BusWord) (h : s.Busy) :
    cmdWrite v s = .next (raiseFault .cmdOverrun (zext32 (lowHalf v)) s) := by
  simp [cmdWrite, h.1, h.2]

/-- An idle block rejects a command out of range before its first tick (R58, R60). -/
theorem command_out_of_range {i : Instr} {f : State → Result} {s : State} (h : s.Idle) (hr : i.inRange = false) :
    command i f s = .next (raiseFault .operandRange (zext32 (encode i)) s) := by
  simp [command, h.1, h.2, hr]

/-- Every command's meaning is its own tick under the shared acceptance (R58). -/
theorem exec_eq_command (i : Instr) : ∃ f, ∀ s, exec i s = command i f s := by
  cases i <;> exact ⟨_, fun _ => rfl⟩

/-- Settles O12: the illegal value is rejected at the boundary, the command out of range by the acceptance all share. -/
theorem rejectedCommandsFault : Obligations.RejectedCommandsFault := by
  refine ⟨fun s q v hidle hq hdec => ?_, fun s i hidle hr => ?_⟩
  · rw [step_of_write (r := .cmd) (hostNow_of_cons hq) rfl, ← zext32_lowHalf, openTick_of_cons hq]
    exact cmdWrite_of_illegal hidle hdec
  · obtain ⟨f, hexec⟩ := exec_eq_command i
    rw [hexec, command_out_of_range hidle hr, BitVec.ofNat_toNat]
    rfl

/-- Settles O13: a busy block takes the write as a fault, and the sequencer's action is not reached. -/
theorem overrunStopsTheRunningCommand : Obligations.OverrunStopsTheRunningCommand := by
  intro s q v hbusy hq
  rw [step_of_write (r := .cmd) (hostNow_of_cons hq) rfl, ← zext32_lowHalf, openTick_of_cons hq]
  exact cmdWrite_of_busy v hbusy

/-- Settles O21: a wait has no range check, and its tick in the accepted state sets EWS and the next action alone. -/
theorem waitsBeginInPre : Obligations.WaitsBeginInPre :=
  fun _ _ hidle => ⟨command_idle hidle rfl, command_idle hidle rfl⟩

end Sys2Proof.Machine

namespace Sys2Proof.Machine

/-! ### Runs in which the block stays busy -/

/-- The block is busy before each of k ticks, and they end in t. -/
def State.BusyUntil (s : State) (k : Nat) (t : State) : Prop :=
  s.Reaches k t ∧ ∀ j, j < k → ∃ u, s.Reaches j u ∧ u.Busy

theorem State.BusyUntil.refl (s : State) : s.BusyUntil 0 s :=
  ⟨reaches_zero.mpr rfl, nofun⟩

theorem State.BusyUntil.of_step {s t : State} (hb : s.Busy) (h : step s = .next t) : s.BusyUntil 1 t := by
  refine ⟨reaches_succ h (reaches_zero.mpr rfl), fun j hj => ⟨s, ?_, hb⟩⟩
  exact (Nat.lt_one_iff.mp hj) ▸ reaches_zero.mpr rfl

theorem State.BusyUntil.trans {j k : Nat} {s t u : State} (h : s.BusyUntil j t) (g : t.BusyUntil k u) :
    s.BusyUntil (j + k) u := by
  refine ⟨reaches_add h.1 g.1, fun n hn => ?_⟩
  rcases Nat.lt_or_ge n j with hlt | hge
  · exact h.2 n hlt
  · obtain ⟨v, hreach, hbusy⟩ := g.2 (n - j) (by omega)
    exact ⟨v, Nat.add_sub_cancel' hge ▸ reaches_add h.1 hreach, hbusy⟩

/-- A whole command: its acceptance tick, then a run in which the block is busy. -/
theorem State.BusyUntil.after_step {k : Nat} {s u t : State} (h : step s = .next u) (g : u.BusyUntil k t) :
    s.Reaches (1 + k) t ∧ ∀ j, 0 < j → j < 1 + k → ∃ v, s.Reaches j v ∧ v.Busy := by
  rw [Nat.add_comm]
  refine ⟨reaches_succ h g.1, fun j hpos hj => ?_⟩
  obtain ⟨v, hreach, hbusy⟩ := g.2 (j - 1) (by omega)
  exact ⟨v, Nat.sub_add_cancel hpos ▸ reaches_succ h hreach, hbusy⟩

/-! ### Ticks the host has no part in -/

/-- The host has nothing left to do, and the ports show nothing of an older tick: a tick opens on the state itself. -/
def State.Settled (s : State) : Prop := s.hostq = [] ∧ s.tx = none ∧ s.rdata = none

theorem State.Settled.openTick_eq {s : State} (h : s.Settled) : s.openTick = s := by
  cases s
  obtain ⟨rfl, rfl, rfl⟩ := h
  rfl

@[simp] theorem answers_openTick (s : State) (line : Line) : s.openTick.answers line = s.answers line := by
  cases line <;> rfl

theorem settled_openTick {s : State} (h : s.hostq = []) : s.openTick.Settled :=
  ⟨by simp [h], rfl, rfl⟩

/-- A settled block in a command does the command's tick alone. -/
theorem step_of_settled {s : State} {i : Instr} (h : s.Settled) (hb : s.Busy) (hcur : s.cur = encode i) :
    step s = exec i s := by
  have hdec : decodeWord s.cur = some i := by rw [hcur, decodeWord_encode]
  rw [step_of_quiet (hostQuiet_of_nil h.1), h.openTick_eq, sequencerTick_of_busy hb hdec]

/-- A run of a host with nothing to do is the run of the settled block, but for the ports before its first tick. -/
theorem reaches_of_openTick {k : Nat} {s t : State} (hq : s.hostq = []) (h : s.openTick.Reaches (k + 1) t) :
    s.Reaches (k + 1) t := by
  have hset := settled_openTick hq
  have hstep : step s = step s.openTick := by
    rw [step_of_quiet (hostQuiet_of_nil hq), step_of_quiet (hostQuiet_of_nil hset.1), hset.openTick_eq]
  have hcore : Sys2Proof.core.step s = Sys2Proof.core.step s.openTick := hstep
  simpa only [State.Reaches, Host.Core.run, hcore] using h

/-- The tick in which the host writes a command in range to an idle block is the command's first tick. -/
theorem step_of_cmdWrite {s : State} {i : Instr} {f : State → Result} (hidle : s.Idle) (hwf : i.WellFormed)
    (hq : s.hostq = [cmdWriteEntry (zext32 (encode i))]) (hexec : ∀ u, exec i u = command i f u) :
    step s = f (accept i s.openTick) := by
  rw [stepRunsTheWrittenCommand s [] _ i hidle hq (decodeReadsBackEncode i), ← openTick_of_cons hq, hexec]
  exact command_idle hidle hwf

theorem settled_accept {s : State} {e : HostTick} (i : Instr) (hq : s.hostq = [e]) :
    (accept i s.openTick).Settled :=
  ⟨by simp [hq], rfl, rfl⟩

/-! ### One observation of a wait (R73, R75) -/

/-- One observation of a wait for edge e on a line; k is what follows the end of the wait. -/
def edgeWait (e : Edge) (line : Line) (k : State → State) (s : State) : State :=
  if s.edgeEnds e line then k (s.edgeStep e line) else s.edgeStep e line

/-- The level that leaves a wait where it is: in PRE it looks for the first level, in POST for the second. -/
def Edge.heldLevel (e : Edge) : EdgeState → Bool
  | .pre => e.postLevel
  | .post => e.preLevel

theorem heldLevel_falling (ews : EdgeState) : Edge.falling.heldLevel ews = decide (ews = .post) := by
  cases ews <;> rfl

theorem heldLevel_rising (ews : EdgeState) : Edge.rising.heldLevel ews = decide (ews = .pre) := by
  cases ews <;> rfl

theorem Edge.postLevel_eq_not (e : Edge) : e.postLevel = !e.preLevel := by cases e <;> rfl

theorem afterObs_withEws {s : State} {ews : EdgeState} (line : Line) (h : s.ews = ews) :
    { s.afterObs line with ews := ews } = s.afterObs line := by
  obtain ⟨_, _, _, _, heq⟩ := afterObs_eq s line
  rw [heq, ← h]

section
variable {s : State} {e : Edge} {line : Line} (k : State → State)

/-- Any other level than the one looked for is waited out. -/
theorem edgeWait_of_held (hv : s.observed line = e.heldLevel s.ews) : edgeWait e line k s = s.afterObs line := by
  have hnext : nextEws e s.ews (s.observed line) = s.ews := by
    cases h : s.ews <;> simp [nextEws, hv, h, Edge.heldLevel, Edge.postLevel_eq_not]
  have hgoes : s.edgeEnds e line = false := by
    cases h : s.ews <;> simp [State.edgeEnds, hv, h, Edge.heldLevel, Edge.postLevel_eq_not]
  rw [edgeWait, hgoes, State.edgeStep, hnext]
  exact afterObs_withEws line rfl

/-- The first level turns PRE to POST. -/
theorem edgeWait_of_pre (hews : s.ews = .pre) (hv : s.observed line = e.preLevel) :
    edgeWait e line k s = { s.afterObs line with ews := .post } := by
  simp [edgeWait, State.edgeEnds, State.edgeStep, nextEws, hews, hv]

/-- The second level in POST ends the wait and leaves PRE. -/
theorem edgeWait_of_post (hews : s.ews = .post) (hv : s.observed line = e.postLevel) :
    edgeWait e line k s = k { s.afterObs line with ews := .pre } := by
  simp [edgeWait, State.edgeEnds, State.edgeStep, nextEws, hews, hv]

end

/-- A tick of WFE or WRE after its acceptance tick is an observation of its wait. -/
theorem waitTick_of_wait {s : State} (e : Edge) (line : Line) (ha : s.act = .wait) :
    waitTick e line s = .next (edgeWait e line complete s) := by
  simp only [waitTick, ha, edgeWait]

/-- What one observation does to WFE and WRE, by EWS and the level (R73 to R76). -/
theorem command_waitTick {s : State} (i : Instr) (e : Edge) (line : Line) (hb : s.Busy) (ha : s.act = .wait) :
    (s.ews = .pre → s.observed line = e.preLevel →
      command i (waitTick e line) s = .next { s.afterObs line with ews := .post }) ∧
    (s.ews = .pre → s.observed line = e.postLevel → command i (waitTick e line) s = .next (s.afterObs line)) ∧
    (s.ews = .post → s.observed line = e.preLevel → command i (waitTick e line) s = .next (s.afterObs line)) ∧
    (s.ews = .post → s.observed line = e.postLevel →
      command i (waitTick e line) s =
        .next { s.afterObs line with ews := .pre, busy := false, act := .accept }) := by
  rw [command_busy hb, waitTick_of_wait e line ha]
  refine ⟨fun he hv => ?_, fun he hv => ?_, fun he hv => ?_, fun he hv => ?_⟩
  · rw [edgeWait_of_pre _ he hv]
  · rw [edgeWait_of_held _ (by rw [he, hv]; rfl)]
  · rw [edgeWait_of_held _ (by rw [he, hv]; rfl)]
  · rw [edgeWait_of_post _ he hv]
    rfl

/-- Settles O22: WFE waits for a falling edge. -/
theorem wfeObservesHighThenLow : Obligations.WfeObservesHighThenLow :=
  fun _ line hbusy ha => command_waitTick (.wfe line) .falling line hbusy ha

/-- Settles O23: WRE waits for a rising edge. -/
theorem wreObservesLowThenHigh : Obligations.WreObservesLowThenHigh :=
  fun _ line hbusy ha => command_waitTick (.wre line) .rising line hbusy ha

/-! ### Whole waits -/

/-- The state some observations into a wait on a line: EWS and the answers to come have moved on. -/
def State.inWait (s : State) (line : Line) (ews : EdgeState) (l : List Bool) : State :=
  { s.withAnswers line l with ews := ews }

theorem inWait_eq (s : State) (line : Line) (ews : EdgeState) (l : List Bool) :
    ∃ a c d, s.inWait line ews l = { s with latchAns := a, clockAns := c, dataAns := d, ews := ews } := by
  cases line <;> exact ⟨_, _, _, rfl⟩

theorem inWait_self {s : State} {line : Line} {ews : EdgeState} {l : List Bool} (he : s.ews = ews)
    (hl : s.answers line = l) : s.inWait line ews l = s := by
  subst he hl
  cases line <;> rfl

@[simp] theorem inWait_ews (s : State) (line : Line) (ews : EdgeState) (l : List Bool) :
    (s.inWait line ews l).ews = ews := rfl

@[simp] theorem inWait_answers (s : State) (line : Line) (ews : EdgeState) (l : List Bool) :
    (s.inWait line ews l).answers line = l := by
  cases line <;> rfl

@[simp] theorem inWait_afterObs (s : State) (line : Line) (ews : EdgeState) (v : Bool) (l : List Bool) :
    (s.inWait line ews (v :: l)).afterObs line = s.inWait line ews l := by
  cases line <;> rfl

@[simp] theorem inWait_observed (s : State) (line : Line) (ews : EdgeState) (v : Bool) (l : List Bool) :
    (s.inWait line ews (v :: l)).observed line = v :=
  observed_of_answers (inWait_answers ..)

/-- The answers to one wait for edge e: levels waited out, the first level at least once, and the second. -/
def Edge.answers (e : Edge) (w : Nat × Nat) : List Bool :=
  List.replicate w.1 e.postLevel ++ List.replicate (w.2 + 1) e.preLevel ++ [e.postLevel]

/-- Every tick of s and of the states into its wait on the line is an observation of the wait for edge e. -/
def State.Waits (s : State) (e : Edge) (line : Line) (k : State → State) : Prop :=
  s.Busy ∧ ∀ ews l, step (s.inWait line ews l) = .next (edgeWait e line k (s.inWait line ews l))

section
variable {s : State} {e : Edge} {line : Line} {k : State → State}

theorem State.Waits.tick (h : s.Waits e line k) (ews : EdgeState) (l : List Bool) {t : State}
    (ht : edgeWait e line k (s.inWait line ews l) = t) : (s.inWait line ews l).BusyUntil 1 t := by
  refine .of_step ?_ (ht ▸ h.2 ews l)
  obtain ⟨_, _, _, heq⟩ := inWait_eq s line ews l
  rw [heq]
  exact h.1

/-- A level that is waited out keeps the block where it is for as long as it is answered. -/
theorem State.Waits.held (h : s.Waits e line k) (ews : EdgeState) (n : Nat) (l : List Bool) :
    (s.inWait line ews (List.replicate n (e.heldLevel ews) ++ l)).BusyUntil n (s.inWait line ews l) := by
  induction n with
  | zero => exact .refl _
  | succ n ih =>
    rw [List.replicate_succ, List.cons_append, Nat.add_comm]
    refine (h.tick ews _ ?_).trans ih
    rw [edgeWait_of_held k (inWait_observed ..), inWait_afterObs]

/-- A wait that is given its edge ends in the tick of its last answer, and is busy up to it. -/
theorem State.Waits.ends (h : s.Waits e line k) (w : Nat × Nat) (l : List Bool) :
    (s.inWait line .pre (e.answers w ++ l)).BusyUntil (edgeTicks w) (k (s.inWait line .pre l)) := by
  have hlist : e.answers w ++ l = List.replicate w.1 e.postLevel ++
      (e.preLevel :: (List.replicate w.2 e.preLevel ++ e.postLevel :: l)) := by
    simp [Edge.answers, List.replicate_succ]
  have hturn := h.tick .pre _ (edgeWait_of_pre k rfl (inWait_observed s line .pre e.preLevel
    (List.replicate w.2 e.preLevel ++ e.postLevel :: l)))
  have hend := h.tick .post _ (edgeWait_of_post k rfl (inWait_observed s line .post e.postLevel l))
  rw [inWait_afterObs] at hturn hend
  rw [hlist, show edgeTicks w = w.1 + (1 + (w.2 + 1)) by unfold edgeTicks; omega]
  exact (h.held .pre w.1 _).trans (hturn.trans ((h.held .post w.2 _).trans hend))

/-- A settled block whose command's tick is the observation, wherever in the wait it is, is in that wait. -/
theorem waits_of_exec {i : Instr} (hset : s.Settled) (hb : s.Busy) (hcur : s.cur = encode i)
    (h : ∀ ews l, exec i (s.inWait line ews l) = .next (edgeWait e line k (s.inWait line ews l))) :
    s.Waits e line k := by
  refine ⟨hb, fun ews l => ?_⟩
  rw [← h]
  obtain ⟨_, _, _, heq⟩ := inWait_eq s line ews l
  rw [heq]
  exact step_of_settled hset hb hcur

end

theorem waits_of_waitTick {s : State} {i : Instr} {e : Edge} {line : Line} (hset : s.Settled) (hb : s.Busy)
    (hcur : s.cur = encode i) (ha : s.act = .wait) (hexec : ∀ u, exec i u = command i (waitTick e line) u) :
    s.Waits e line complete := by
  refine waits_of_exec hset hb hcur fun ews l => ?_
  obtain ⟨_, _, _, heq⟩ := inWait_eq s line ews l
  rw [hexec, heq]
  refine (command_busy ?_).trans (waitTick_of_wait e line ?_)
  exacts [hb, ha]

/-- Settles O25: from its acceptance tick on, the command is in a wait that is given its edge. -/
theorem waitsEndAtTheirEdge : Obligations.WaitsEndAtTheirEdge := by
  intro s line i w rest hidle hq hi
  obtain ⟨e, hwf, hexec, hans⟩ : ∃ e : Edge, i.WellFormed ∧ (∀ u, exec i u = command i (waitTick e line) u) ∧
      s.answers line = e.answers w ++ rest := by
    rcases hi with ⟨rfl, hans⟩ | ⟨rfl, hans⟩
    · exact ⟨.falling, rfl, fun _ => rfl, hans⟩
    · refine ⟨.rising, rfl, fun _ => rfl, ?_⟩
      rw [hans]
      simp [edgeAnswers, Edge.answers, Edge.preLevel, Edge.postLevel]
  have hstep : step s = .next { accept i s.openTick with ews := .pre, act := .wait } :=
    step_of_cmdWrite hidle hwf hq hexec
  have hwaits : State.Waits { accept i s.openTick with ews := .pre, act := .wait } e line complete :=
    waits_of_waitTick (i := i) (settled_accept i hq) ⟨hidle.1, rfl⟩ rfl rfl hexec
  have hrun := hwaits.ends w rest
  rw [inWait_self rfl (by rw [← hans]; cases line <;> rfl)] at hrun
  obtain ⟨hreach, hbusy⟩ := hrun.after_step hstep
  refine ⟨⟨_, hreach, ?_⟩, hbusy⟩
  rw [complete_answers, inWait_answers]
  obtain ⟨_, _, _, heq⟩ := inWait_eq { accept i s.openTick with ews := .pre, act := .wait } line .pre rest
  rw [heq]
  exact ⟨⟨hidle.1, rfl⟩, rfl, ⟨rfl, rfl⟩, ⟨rfl, rfl⟩, rfl, rfl⟩

end Sys2Proof.Machine

namespace Sys2Proof.Machine

/-! ### One tick of a pass (R78, R81) -/

/-- The pass's next action is the observation of a wait on the line. -/
def State.PassWaits (s : State) (line : Line) : Prop :=
  s.act = .latch ∧ line = .latch ∨ s.act = .clock ∧ line = .clock

/-- What follows a pass's wait on LATCH, and on CLOCK. -/
def afterPassWait (p : Pass) (line : Line) (s : State) : State :=
  if line = .latch then afterLatch p s else { s with act := .data }

theorem State.PassWaits.act_ne_accept {s : State} {line : Line} (h : s.PassWaits line) : s.act ≠ .accept := by
  rcases h with ⟨ha, -⟩ | ⟨ha, -⟩ <;> simp [ha]

section
variable {p : Pass} (k : State → State) {s : State}

theorem passTick_of_wait {line : Line} (h : s.PassWaits line) :
    passTick p k s = .next (edgeWait .falling line (afterPassWait p line) s) := by
  rcases h with ⟨ha, rfl⟩ | ⟨ha, rfl⟩ <;> simp [passTick, ha, edgeWait, afterPassWait]

theorem passTick_of_data (ha : s.act = .data) (h : s.bi + 1 < p.n) :
    passTick p k s = .next (nextBit p (storeBit p s)) := by
  simp [passTick, ha, Nat.not_le.mpr h]

theorem passTick_of_last_data (ha : s.act = .data) (h : p.n ≤ s.bi + 1) :
    passTick p k s = .next (k (storeBit p s)) := by
  simp [passTick, ha, h]

end

/-- The observation of a wait for a falling edge, by EWS and the level. -/
theorem edgeWait_falling (line : Line) (k : State → State) (s : State) :
    edgeWait .falling line k s =
      if s.ews = .pre then { s.afterObs line with ews := if s.observed line then .post else .pre }
      else if s.observed line then s.afterObs line else k { s.afterObs line with ews := .pre } := by
  cases hews : s.ews <;> cases hv : s.observed line
  · rw [edgeWait_of_held k (by rw [hews, hv]; rfl)]
    exact (afterObs_withEws line hews).symm
  · exact edgeWait_of_pre k hews hv
  · exact edgeWait_of_post k hews hv
  · exact edgeWait_of_held k (by rw [hews, hv]; rfl)

theorem sampleTick_of_started {p : Pass} {s : State} (ha : s.act ≠ .accept) :
    sampleTick p s = passTick p complete s := by
  unfold sampleTick
  split
  · next h => exact absurd h ha
  · rfl

theorem capTick_of_started {s : State} (ha : s.act ≠ .accept) : capTick s = captureTick complete s := by
  unfold capTick
  split
  · next h => exact absurd h ha
  · rfl

/-- In step (b) of a cycle the capture runs. -/
theorem cycleTick_of_capture {k : State → State} {s : State} (ha : s.act ≠ .accept) (hc : s.cph = .b) :
    cycleTick k s = captureTick afterCapture s := by
  unfold cycleTick
  split <;> simp_all

theorem captureTick_of_pass1 {k : State → State} {s : State} (hk : s.kph = .pass1) :
    captureTick k s = passTick s.basePass (afterBasePass k) s := by
  simp only [captureTick, hk]

theorem captureTick_of_pass2 {k : State → State} {s : State} (hk : s.kph = .pass2) :
    captureTick k s = passTick s.extPass (afterExtPass k) s := by
  simp only [captureTick, hk]

/-- Settles O30: a tick of SMPS in a wait is one observation of it, and what follows is CLOCK or DATA. -/
theorem smpsWaitsForItsEdges : Obligations.SmpsWaitsForItsEdges := by
  intro s l idx nm1 line hbusy hwait
  have htick : exec (.smps l idx nm1) s =
      .next (edgeWait .falling line (afterPassWait (smpsPass l idx nm1) line) s) :=
    (command_busy hbusy).trans <| (sampleTick_of_started (State.PassWaits.act_ne_accept hwait)).trans <|
      passTick_of_wait complete hwait
  rw [htick, edgeWait_falling]
  rcases hwait with ⟨-, rfl⟩ | ⟨-, rfl⟩ <;> simp [afterPassWait, afterLatch, smpsPass]

/-! ### Whole waits of a pass -/

/-- u is s but for what a pass moves: entries, EWS, BI, SC, the next action and the device. -/
def PassMoves (s u : State) : Prop :=
  u = { s with
    buf := u.buf, wr := u.wr, ews := u.ews, bi := u.bi, sc := u.sc, act := u.act,
    latchAns := u.latchAns, clockAns := u.clockAns, dataAns := u.dataAns, draws := u.draws }

theorem PassMoves.trans {s t u : State} (h : PassMoves s t) (g : PassMoves t u) : PassMoves s u :=
  Eq.trans g (by rw [h])

theorem passMoves_inWait (s : State) (line : Line) (ews : EdgeState) (l : List Bool) :
    PassMoves s (s.inWait line ews l) := by
  obtain ⟨_, _, _, h⟩ := inWait_eq s line ews l
  rw [h]
  rfl

theorem PassMoves.busy {s u : State} (h : PassMoves s u) (hb : s.Busy) : u.Busy := by
  rw [h]
  exact hb

/-- What a pass leaves alone: all but the entries, EWS, BI, SC, the next action and the device. -/
theorem PassMoves.frame {s u : State} (h : PassMoves s u) :
    SameSetting s u ∧ SameLength s u ∧ SameFault s u ∧ SameOutput s u ∧ SameCycle s u ∧
    u.is = s.is ∧ u.busy = s.busy ∧ u.cur = s.cur := by
  rw [h]
  simp

/-- Wherever the pass p moves s after its start, a tick is a tick of p, and k follows its end. -/
def State.RunsPass (s : State) (p : Pass) (k : State → State) : Prop :=
  s.Busy ∧ ∀ u, PassMoves s u → u.act ≠ .accept → step u = passTick p k u

theorem State.RunsPass.moves {s u : State} {p : Pass} {k : State → State} (h : s.RunsPass p k)
    (hu : PassMoves s u) : u.RunsPass p k :=
  ⟨hu.busy h.1, fun v hv => h.2 v (hu.trans hv)⟩

theorem State.RunsPass.waits {s : State} {p : Pass} {k : State → State} {line : Line} (h : s.RunsPass p k)
    (hw : s.PassWaits line) : s.Waits .falling line (afterPassWait p line) := by
  refine ⟨h.1, fun ews l => ?_⟩
  have hw' : (s.inWait line ews l).PassWaits line := by
    obtain ⟨_, _, _, heq⟩ := inWait_eq s line ews l
    rw [heq]
    exact hw
  rw [h.2 _ (passMoves_inWait s line ews l) hw'.act_ne_accept, passTick_of_wait k hw']

/-- A settled block whose command's ticks are those of the pass runs it. -/
theorem runsPass_of_exec {s : State} {i : Instr} {p : Pass} {k : State → State} (hset : s.Settled) (hb : s.Busy)
    (hcur : s.cur = encode i) (h : ∀ u, PassMoves s u → u.act ≠ .accept → exec i u = passTick p k u) :
    s.RunsPass p k := by
  refine ⟨hb, fun u hu ha => ?_⟩
  rw [← h u hu ha]
  refine step_of_settled ?_ (hu.busy hb) ?_ <;> rw [hu]
  exacts [hset, hcur]

/-- SMPS and SMPL run their pass. -/
theorem runsPass_of_sampleTick {s : State} {i : Instr} {p : Pass} (hset : s.Settled) (hb : s.Busy)
    (hcur : s.cur = encode i) (hexec : ∀ u, exec i u = command i (sampleTick p) u) : s.RunsPass p complete :=
  runsPass_of_exec hset hb hcur fun u hu ha => by
    rw [hexec, command_busy (hu.busy hb), sampleTick_of_started ha]

/-- A capture runs the pass its step names (R103). -/
theorem runsPass_of_captureTick {s : State} {i : Instr} {k : State → State} (hset : s.Settled) (hb : s.Busy)
    (hcur : s.cur = encode i) (hk : s.kph ≠ .classify)
    (hexec : ∀ u, PassMoves s u → u.act ≠ .accept → exec i u = captureTick k u) : ∃ p done, s.RunsPass p done := by
  cases hk' : s.kph with
  | pass1 =>
    refine ⟨s.basePass, afterBasePass k, runsPass_of_exec hset hb hcur fun u hu ha => ?_⟩
    rw [hexec u hu ha, captureTick_of_pass1 (by rw [hu]; exact hk'), show u.basePass = s.basePass by rw [hu]; rfl]
  | pass2 =>
    refine ⟨s.extPass, afterExtPass k, runsPass_of_exec hset hb hcur fun u hu ha => ?_⟩
    rw [hexec u hu ha, captureTick_of_pass2 (by rw [hu]; exact hk'), show u.extPass = s.extPass by rw [hu]; rfl]
  | classify => exact absurd hk' hk

/-- SMPS, SMPL and the commands that capture run a pass (R80, R82, R103, R105, R106). -/
theorem runsPass_of_sampling {s : State} {i : Instr} (hset : s.Settled) (hb : s.Busy) (hcur : s.cur = encode i)
    (hi : (∃ l idx nm1, i = .smps l idx nm1) ∨ (∃ l p idx nm1, i = .smpl l p idx nm1) ∨
      i = .cap ∧ s.kph ≠ .classify ∨ (i = .cycle ∨ i = .run) ∧ s.cph = .b ∧ s.kph ≠ .classify) :
    ∃ p k, s.RunsPass p k := by
  rcases hi with ⟨l, idx, nm1, rfl⟩ | ⟨l, p, idx, nm1, rfl⟩ | ⟨rfl, hk⟩ | ⟨hi, hc, hk⟩
  · exact ⟨_, _, runsPass_of_sampleTick hset hb hcur fun _ => rfl⟩
  · exact ⟨_, _, runsPass_of_sampleTick hset hb hcur fun _ => rfl⟩
  · exact runsPass_of_captureTick hset hb hcur hk fun u hu ha =>
      (command_busy (hu.busy hb)).trans (capTick_of_started ha)
  · refine runsPass_of_captureTick (k := afterCapture) hset hb hcur hk fun u hu ha => ?_
    have hc' : u.cph = .b := by rw [hu]; exact hc
    rcases hi with rfl | rfl <;> exact (command_busy (hu.busy hb)).trans (cycleTick_of_capture ha hc')

/-- Settles O26: the block is in a wait that the repeated level leaves where it is. -/
theorem waitHangsWithoutFault : Obligations.WaitHangsWithoutFault := by
  intro s i line level n rest hb hq hcur hi hans
  have hset := settled_openTick hq
  obtain ⟨e, k, hwaits, hlevel⟩ : ∃ e k, s.openTick.Waits e line k ∧ level = e.heldLevel s.ews := by
    rcases hi with ⟨rfl, ha, hl⟩ | ⟨rfl, ha, hl⟩ | ⟨hi, hw, hl⟩
    · exact ⟨.falling, complete, waits_of_waitTick hset hb hcur ha fun _ => rfl, hl.trans (heldLevel_falling _).symm⟩
    · exact ⟨.rising, complete, waits_of_waitTick hset hb hcur ha fun _ => rfl, hl.trans (heldLevel_rising _).symm⟩
    · obtain ⟨p, k, hpass⟩ := runsPass_of_sampling hset hb hcur hi
      have hplace : s.PassWaits line := by simpa only [State.PassWaits, and_comm] using hw
      exact ⟨.falling, _, hpass.waits hplace, hl.trans (heldLevel_falling _).symm⟩
  cases n with
  | zero => exact ⟨s, reaches_zero.mpr rfl, hb, by simp [hans]⟩
  | succ n =>
    have hstart : s.openTick.inWait line s.ews (List.replicate (n + 1) (e.heldLevel s.ews) ++ rest) = s.openTick :=
      inWait_self rfl (by rw [answers_openTick, hans, hlevel])
    have hrun := hwaits.held s.ews (n + 1) rest
    rw [hstart] at hrun
    refine ⟨_, reaches_of_openTick hq hrun.1, ?_⟩
    rw [inWait_answers]
    obtain ⟨_, _, _, heq⟩ := inWait_eq s.openTick line s.ews rest
    rw [heq]
    exact ⟨hb, rfl, rfl, rfl, rfl, rfl, ⟨rfl, rfl, rfl⟩, ⟨rfl, rfl⟩, ⟨rfl, rfl⟩, rfl, rfl⟩

end Sys2Proof.Machine

namespace Sys2Proof.Machine

/-! ### Sampled entries -/

/-- One stored bit (R17, R78, R85). -/
theorem sampled_bufWrite (s : State) {i : Nat} (v : Bool) (hi : i < 32) : Sampled s (s.bufWrite i (!v)) i [v] := by
  intro j hj
  have hiff : j = i ↔ i ≤ j ∧ j < i + [v].length := by rw [List.length_singleton]; omega
  obtain ⟨hread, hwritten⟩ := bufWriteStoresOneEntry s i j (!v) hi hj
  rw [hread, hwritten]
  simp only [← hiff]
  refine ⟨ite_congr rfl (fun hj => ?_) fun _ => rfl, trivial⟩
  simp [hj]

/-- Entries sampled after entries sampled. -/
theorem Sampled.append {s t u : State} {i : Nat} {d d' : List Bool} (h : Sampled s t i d)
    (g : Sampled t u (i + d.length) d') : Sampled s u i (d ++ d') := by
  intro j hj
  obtain ⟨hread, hwritten⟩ := h j hj
  obtain ⟨gread, gwritten⟩ := g j hj
  rw [gread, gwritten, hread, hwritten, List.length_append]
  rcases Nat.lt_or_ge j (i + d.length) with hlt | hge
  · have hout : ¬ (i + d.length ≤ j ∧ j < i + d.length + d'.length) := by omega
    have hiff : (i ≤ j ∧ j < i + d.length) ↔ (i ≤ j ∧ j < i + (d.length + d'.length)) := by omega
    rw [if_neg hout, if_neg hout]
    simp only [← hiff]
    refine ⟨ite_congr rfl (fun hin => ?_) fun _ => rfl, trivial⟩
    rw [List.getD_append _ _ _ _ (by omega)]
  · have hout : ¬ (i ≤ j ∧ j < i + d.length) := by omega
    have hiff : (i + d.length ≤ j ∧ j < i + d.length + d'.length) ↔
        (i ≤ j ∧ j < i + (d.length + d'.length)) := by omega
    rw [if_neg hout, if_neg hout]
    simp only [← hiff]
    refine ⟨ite_congr rfl (fun hin => ?_) fun _ => rfl, trivial⟩
    rw [List.getD_append_right _ _ _ _ (by omega), Nat.sub_sub]

/-! ### The clocked bits of a pass (R78) -/

/-- s stands before the CLOCK wait of the last bits of the pass p; the device gives their edges, by ws, and levels d. -/
structure State.BeforeBits (s : State) (p : Pass) (ws : List (Nat × Nat)) (d cr dr : List Bool) : Prop where
  act : s.act = .clock
  ews : s.ews = .pre
  count : s.bi + d.length = p.n
  edges : ws.length = d.length
  clock : s.clockAns = ws.flatMap edgeAnswers ++ cr
  data : s.dataAns = d ++ dr

/-- Bits with the levels d have been stored from entry i on, and the lines have the answers lr, cr and dr left. -/
structure State.AfterBits (s t : State) (i : Nat) (d lr cr dr : List Bool) : Prop where
  moves : PassMoves s t
  sampled : Sampled s t i d
  latch : t.latchAns = lr
  clock : t.clockAns = cr
  data : t.dataAns = dr

theorem State.AfterBits.append {s t u : State} {i : Nat} {d d' lr lr' cr cr' dr dr' : List Bool}
    (h : s.AfterBits t i d lr cr dr) (g : t.AfterBits u (i + d.length) d' lr' cr' dr') :
    s.AfterBits u i (d ++ d') lr' cr' dr' where
  moves := h.moves.trans g.moves
  sampled := h.sampled.append g.sampled
  latch := g.latch
  clock := g.clock
  data := g.data

/-- The DATA observation of a scripted level. -/
theorem storeBit_of_answers {p : Pass} {s : State} {v : Bool} {dr : List Bool} (h : s.dataAns = v :: dr) :
    storeBit p s = { s.bufWrite (p.idx + s.bi) (!v) with bi := s.bi + 1, dataAns := dr } := by
  have hans : s.answers .data = v :: dr := h
  rw [storeBit, observed_of_answers hans, afterObs_of_answers hans]
  rfl

/-- s after the bit BI of the pass p, sampled at the level v, with a as the next action. -/
def State.clockedBit (s : State) (p : Pass) (v : Bool) (cr dr : List Bool) (a : Action) : State :=
  { s.bufWrite (p.idx + s.bi) (!v) with bi := s.bi + 1, ews := .pre, act := a, clockAns := cr, dataAns := dr }

theorem clockedBit_afterBits (s : State) {p : Pass} (v : Bool) (cr dr : List Bool) (a : Action)
    (hfit : p.idx + s.bi < 32) : s.AfterBits (s.clockedBit p v cr dr a) (p.idx + s.bi) [v] s.latchAns cr dr where
  moves := rfl
  sampled := sampled_bufWrite s v hfit
  latch := rfl
  clock := rfl
  data := rfl

section
variable {s : State} {p : Pass} {k : State → State} {d cr dr : List Bool}

/-- The wait of a bit, and the tick of its DATA observation. -/
theorem State.RunsPass.clockedBit (h : s.RunsPass p k) (hp : p.legacy = false) {w : Nat × Nat} {v : Bool}
    (ha : s.act = .clock) (he : s.ews = .pre) (hc : s.clockAns = edgeAnswers w ++ cr) (hd : s.dataAns = v :: dr) :
    s.BusyUntil (edgeTicks w + 1) (if p.n ≤ s.bi + 1 then k (s.clockedBit p v cr dr .data)
      else s.clockedBit p v cr dr .clock) := by
  have hwait := (h.waits (.inr ⟨ha, rfl⟩)).ends w cr
  have hstart : s.inWait .clock .pre (Edge.falling.answers w ++ cr) = s := inWait_self he hc
  rw [hstart] at hwait
  have hact : (afterPassWait p .clock (s.inWait .clock .pre cr)).act = .data := rfl
  have hstore : storeBit p (afterPassWait p .clock (s.inWait .clock .pre cr)) = s.clockedBit p v cr dr .data :=
    storeBit_of_answers hd
  have hdata : passTick p k (afterPassWait p .clock (s.inWait .clock .pre cr)) =
      .next (if p.n ≤ s.bi + 1 then k (s.clockedBit p v cr dr .data) else s.clockedBit p v cr dr .clock) := by
    split
    · next hlast => rw [passTick_of_last_data k hact hlast, hstore]
    · next hmore =>
      rw [passTick_of_data k hact (Nat.lt_of_not_le hmore), hstore, nextBit, if_neg (by simp [hp])]
      rfl
  refine hwait.trans (.of_step h.1 ?_)
  rw [← hdata]
  exact h.2 _ rfl nofun

/-- The clocked bits of a pass up to its last: the block is busy through them, and k follows in the last tick. -/
theorem State.RunsPass.clockedBits {ws : List (Nat × Nat)} (h : s.RunsPass p k) (hp : p.legacy = false)
    (hfit : p.idx + p.n ≤ 32) (hne : d ≠ []) (hb : s.BeforeBits p ws d cr dr) :
    ∃ t, s.BusyUntil (clockedTicks ws) (k t) ∧ s.AfterBits t (p.idx + s.bi) d s.latchAns cr dr := by
  induction d generalizing s ws with
  | nil => exact absurd rfl hne
  | cons v d ih =>
    obtain ⟨ha, he, hcount, hedges, hclock, hdata⟩ := hb
    obtain ⟨w, ws, rfl⟩ := List.exists_cons_of_length_eq_add_one hedges
    rw [List.length_cons] at hcount
    rw [List.flatMap_cons, List.append_assoc] at hclock
    have hticks : clockedTicks (w :: ws) = edgeTicks w + 1 + clockedTicks ws := by simp [clockedTicks]
    have hbit := h.clockedBit hp ha he hclock hdata
    have hafter := clockedBit_afterBits s v (ws.flatMap edgeAnswers ++ cr) (d ++ dr) (p := p)
    by_cases hd : d = []
    · subst hd
      obtain rfl : ws = [] := List.eq_nil_of_length_eq_zero (Nat.succ.inj hedges)
      rw [if_pos (show p.n ≤ s.bi + 1 from hcount.ge)] at hbit
      exact ⟨_, hbit, hafter .data (by omega)⟩
    · have hpos := List.length_pos_iff.mpr hd
      rw [if_neg (by omega)] at hbit
      have hnext : State.BeforeBits (s.clockedBit p v (ws.flatMap edgeAnswers ++ cr) (d ++ dr) .clock) p ws d cr dr :=
        { act := rfl, ews := rfl, clock := rfl, data := rfl
          edges := Nat.succ.inj hedges
          count := (Nat.succ_add s.bi d.length).trans hcount }
      obtain ⟨t, hrun, ht⟩ := ih (h.moves (hafter .clock (by omega)).moves) hd hnext
      rw [hticks]
      exact ⟨t, hbit.trans hrun, (hafter .clock (by omega)).append ht⟩

end

/-! ### A whole clocked pass (R78), and a whole SMPS (R80) -/

theorem afterLatch_withAct (p : Pass) (s : State) (a : Action) :
    afterLatch p { s with act := a } = afterLatch p s := by
  unfold afterLatch
  split
  · split <;> rfl
  · rfl

/-- s with no bit of a pass stored, and the answers lr left when its LATCH wait is past. -/
def State.begun (s : State) (lr : List Bool) : State := { s with bi := 0, ews := .pre, latchAns := lr }

/-- A pass starts with its LATCH wait if it has one (R78, R81). -/
theorem State.RunsPass.latchWait {s : State} {p : Pass} {k : State → State} {wl : Nat × Nat} {lr : List Bool}
    (h : s.RunsPass p k) (hl : s.latchAns = (if p.latchFirst then edgeAnswers wl else []) ++ lr) :
    (startPass p s).BusyUntil (if p.latchFirst then edgeTicks wl else 0) (afterLatch p (s.begun lr)) := by
  unfold startPass
  split at hl
  · next hp =>
    rw [if_pos hp, if_pos hp]
    have hruns : State.RunsPass { s with bi := 0, ews := .pre, act := .latch } p k := h.moves rfl
    have hrun := (hruns.waits (.inl ⟨rfl, rfl⟩)).ends wl lr
    have hself : State.inWait { s with bi := 0, ews := .pre, act := .latch } .latch .pre
        (Edge.falling.answers wl ++ lr) = { s with bi := 0, ews := .pre, act := .latch } := inWait_self rfl hl
    rw [hself] at hrun
    rw [← afterLatch_withAct p _ .latch]
    exact hrun
  · next hp =>
    obtain rfl : s.latchAns = lr := hl
    rw [if_neg hp, if_neg hp]
    exact .refl _

/-- A clocked pass that is given its edges, from its start to the tick of its last bit, in which k follows. -/
theorem State.RunsPass.clockedPass {s : State} {p : Pass} {k : State → State} {wl : Nat × Nat}
    {ws : List (Nat × Nat)} {d lr cr dr : List Bool} (h : s.RunsPass p k) (hp : p.legacy = false)
    (hfit : p.idx + p.n ≤ 32) (hne : d ≠ []) (hd : d.length = p.n) (hws : ws.length = d.length)
    (hl : s.latchAns = (if p.latchFirst then edgeAnswers wl else []) ++ lr)
    (hc : s.clockAns = ws.flatMap edgeAnswers ++ cr) (hdr : s.dataAns = d ++ dr) :
    ∃ t, (startPass p s).BusyUntil ((if p.latchFirst then edgeTicks wl else 0) + clockedTicks ws) (k t) ∧
      s.AfterBits t p.idx d lr cr dr := by
  have hturn : afterLatch p (s.begun lr) = { s.begun lr with act := .clock } := by simp [afterLatch, hp]
  have hmoves : PassMoves s { s.begun lr with act := .clock } := rfl
  have hready : State.BeforeBits { s.begun lr with act := .clock } p ws d cr dr :=
    { act := rfl, ews := rfl, count := (Nat.zero_add _).trans hd, edges := hws, clock := hc, data := hdr }
  have hwait := h.latchWait hl
  rw [hturn] at hwait
  obtain ⟨t, hbits, hafter⟩ := (h.moves hmoves).clockedBits hp hfit hne hready
  exact ⟨t, hwait.trans hbits, { hafter with moves := hmoves.trans hafter.moves }⟩

/-- Settles O33: the acceptance tick starts a clocked pass, and the command completes in the tick of its last bit. -/
theorem smpsCapturesAWholePass : Obligations.SmpsCapturesAWholePass := by
  intro s l idx nm1 wl ws d lr cr dr hidle hwf hq hd hws hlatch hclock hdata
  have hstep : step s = .next (startPass (smpsPass l idx nm1) (accept (.smps l idx nm1) s.openTick)) :=
    step_of_cmdWrite hidle hwf hq fun _ => rfl
  have hruns : (accept (.smps l idx nm1) s.openTick).RunsPass (smpsPass l idx nm1) complete :=
    runsPass_of_sampleTick (settled_accept _ hq) ⟨hidle.1, rfl⟩ rfl fun _ => rfl
  obtain ⟨t, hrun, hafter⟩ := hruns.clockedPass rfl (passInRange_iff.mp hwf)
    (List.ne_nil_of_length_eq_add_one hd) hd hws hlatch hclock hdata
  obtain ⟨hreach, hbusy⟩ := hrun.after_step hstep
  obtain ⟨-, hlen, hfault, ⟨hout, -⟩, -, his, -⟩ := hafter.moves.frame
  rw [← Nat.add_assoc] at hreach hbusy
  exact ⟨⟨complete t, hreach, ⟨hfault.1.trans hidle.1, rfl⟩, hafter.sampled, hafter.latch, hafter.clock, hafter.data,
    hlen, his, hout, hfault⟩, hbusy⟩

end Sys2Proof.Machine

namespace Sys2Proof.Machine

/-! ### The ticks of CAP (R103) -/

/-- The pass that a capture is in, by its step. -/
def State.capturePass (s : State) : Pass := if s.kph = .pass1 then s.basePass else s.extPass

@[simp] theorem capturePass_legacy (s : State) : s.capturePass.legacy = s.strat := by
  unfold State.capturePass
  split <;> rfl

@[simp] theorem capturePass_idx (s : State) : s.capturePass.idx = if s.kph = .pass1 then 0 else 16 := by
  unfold State.capturePass
  split <;> rfl

@[simp] theorem capturePass_n (s : State) : s.capturePass.n = 16 := by
  unfold State.capturePass
  split <;> rfl

/-- A pass of a capture that waits for LATCH does not spin before its first bit (R103). -/
theorem capturePass_lead {s : State} (h : s.kph = .pass1 ∨ s.params.relatchOnExt = true) :
    s.capturePass.lead = false := by
  unfold State.capturePass
  split
  · rfl
  · next hk => simp [State.extPass, h.resolve_left hk]

theorem exec_cap_of_started {s : State} (hb : s.Busy) (ha : s.act ≠ .accept) :
    exec .cap s = captureTick complete s :=
  (command_busy hb).trans (capTick_of_started ha)

theorem exec_cap_of_pass {s : State} (hb : s.Busy) (ha : s.act ≠ .accept) (hk : s.kph = .pass1 ∨ s.kph = .pass2) :
    ∃ k, exec .cap s = passTick s.capturePass k s := by
  rw [exec_cap_of_started hb ha]
  rcases hk with hk | hk
  · exact ⟨_, by rw [captureTick_of_pass1 hk, State.capturePass, if_pos hk]⟩
  · exact ⟨_, by rw [captureTick_of_pass2 hk, State.capturePass, if_neg (by simp [hk])]⟩

/-- A spin that has ticks begins with the first of them (R7, R81). -/
theorem startSpin_of_pos {s : State} (h : 1 ≤ s.params.spinTicks) :
    startSpin s = { s with sc := s.spinLength, act := .spin } := by
  have hpos : s.spinLength ≠ 0 := by
    unfold State.spinLength
    split <;> omega
  rw [startSpin, if_neg hpos]

theorem nextBit_of_pos {p : Pass} {s : State} (h : 1 ≤ s.params.spinTicks) :
    nextBit p s = { s with
      act := if p.legacy then .spin else .clock, sc := if p.legacy then s.spinLength else s.sc } := by
  unfold nextBit
  split
  · exact startSpin_of_pos h
  · rfl

theorem afterLatch_of_pos {p : Pass} {s : State} (h : 1 ≤ s.params.spinTicks) :
    afterLatch p s = { s with
      sc := if p.legacy && p.lead then s.spinLength else s.sc
      act := if p.legacy then (if p.lead then .spin else .data) else .clock } := by
  cases hp : p.legacy <;> cases hl : p.lead <;> simp [afterLatch, hp, hl, startSpin_of_pos h]

/-- The extension pass begins (R103). -/
theorem startPass_extPass {s : State} (h : 1 ≤ s.params.spinTicks) :
    startPass s.extPass s = { s with
      bi := 0, ews := .pre, sc := if s.strat && !s.params.relatchOnExt then s.spinLength else s.sc
      act := if s.params.relatchOnExt then .latch else if s.strat then .spin else .clock } := by
  cases hr : s.params.relatchOnExt
  · have hlatch : s.extPass.latchFirst = false := hr
    rw [startPass, if_neg (by simp [hlatch]), afterLatch_of_pos (s := { s with bi := 0, ews := .pre }) h]
    cases hst : s.strat <;> simp [State.extPass, hr, hst, State.spinLength]
  · have hlatch : s.extPass.latchFirst = true := hr
    simp [startPass, hlatch]

/-- The base pass has stored its last bit, and entry 13 is written: the classification goes on (R103). -/
theorem afterBasePass_of_written {k : State → State} {s : State} (h13 : s.written 13 = true)
    (h15 : s.written 15 = true) : afterBasePass k s = classifyFrame k { s with kph := .classify } := by
  refine guardWritten_of_written fun j hj => ?_
  simp only [markerEntries, Config.markT, Config.markM, List.mem_cons, List.not_mem_nil, or_false] at hj
  rcases hj with rfl | rfl
  exacts [h13, h15]

/-- s after the last DATA observation of its base pass. -/
def State.baseStored (s : State) : State :=
  { (s.afterObs .data).bufWrite 15 (!s.observed .data) with bi := 16 }

theorem baseStored_written (s : State) (j : Nat) : s.baseStored.written j = if j = 15 then true else s.written j := by
  simp [State.baseStored, State.written, getLsbD_setBit]

theorem baseStored_bufRead (s : State) (j : Nat) :
    s.baseStored.bufRead j = if j = 15 then !s.observed .data else s.bufRead j := by
  simp [State.baseStored, State.bufRead, getLsbD_setBit]

/-- A frame is a base frame only for m = 0 and t = 1 (R87, R103). -/
theorem baseStored_classified (s : State) : s.baseStored.classified = !(s.observed .data && s.bufRead 13) := by
  unfold State.classified
  rw [baseStored_bufRead, baseStored_bufRead, if_pos (show Config.markM = 15 from rfl),
    if_neg (show Config.markT ≠ 15 by decide)]
  change classify (!s.observed .data) (s.bufRead 13) = _
  cases s.observed .data <;> cases s.bufRead 13 <;> rfl

theorem exec_cap_of_base_end {s : State} (hb : s.Busy) (ha : s.act = .data) (hbi : s.bi = 15) (hk : s.kph = .pass1)
    (hw : s.written 13 = true) :
    exec .cap s = .next (classifyFrame complete { s.baseStored with kph := .classify }) := by
  have hstore : storeBit s.basePass s = s.baseStored := by
    simp [storeBit, State.baseStored, State.basePass, hbi]
  have h13 : s.baseStored.written 13 = true := by simpa [baseStored_written] using hw
  have h15 : s.baseStored.written 15 = true := by simp [baseStored_written]
  rw [exec_cap_of_started hb (by simp [ha]), captureTick_of_pass1 hk,
    passTick_of_last_data _ ha (by simp [hbi, State.basePass, Config.baseLen]), hstore,
    afterBasePass_of_written h13 h15]

/-- The last DATA observation of the base pass ends CAP with m = 0 and t = 1. -/
theorem exec_cap_of_base_frame {s : State} (hb : s.Busy) (ha : s.act = .data) (hbi : s.bi = 15)
    (hk : s.kph = .pass1) (hw : s.written 13 = true) (hm : s.observed .data = true) (ht : s.bufRead 13 = true) :
    exec .cap s = .next { s.baseStored with kph := .classify, ext := false, busy := false, act := .accept } := by
  have hclass : State.classified { s.baseStored with kph := .classify } = false := by
    refine (baseStored_classified s).trans ?_
    rw [hm, ht]
    rfl
  rw [exec_cap_of_base_end hb ha hbi hk hw, classifyFrame, if_neg (by simp [hclass])]
  rfl

/-- The last DATA observation of the base pass begins the extension pass with m = 1 or t = 0. -/
theorem exec_cap_of_extended_frame {s : State} (hb : s.Busy) (ha : s.act = .data) (hbi : s.bi = 15)
    (hk : s.kph = .pass1) (hw : s.written 13 = true) (hspin : 1 ≤ s.params.spinTicks)
    (hmt : s.observed .data = false ∨ s.bufRead 13 = false) :
    exec .cap s = .next { s.baseStored with
      kph := .pass2, ext := true, bi := 0, ews := .pre
      sc := if s.strat && !s.params.relatchOnExt then s.spinLength else s.sc
      act := if s.params.relatchOnExt then .latch else if s.strat then .spin else .clock } := by
  have hclass : State.classified { s.baseStored with kph := .classify } = true := by
    refine (baseStored_classified s).trans ?_
    rcases hmt with h | h <;> simp [h]
  have hstart := startPass_extPass (s := { s.baseStored with kph := .pass2, ext := true })
    (by simpa [State.baseStored] using hspin)
  rw [exec_cap_of_base_end hb ha hbi hk hw, classifyFrame, if_pos hclass]
  refine congrArg Host.Outcome.next (hstart.trans ?_)
  simp [State.baseStored, State.spinLength]

/-- The last DATA observation of the extension pass sets FL and ends CAP. -/
theorem exec_cap_of_ext_end {s : State} (hb : s.Busy) (ha : s.act = .data) (hbi : s.bi = 15) (hk : s.kph = .pass2) :
    exec .cap s = .next { (s.afterObs .data).bufWrite 31 (!s.observed .data) with
      bi := 16, fl := true, busy := false, act := .accept } := by
  have hstore : storeBit s.extPass s = { (s.afterObs .data).bufWrite 31 (!s.observed .data) with bi := 16 } := by
    simp [storeBit, State.extPass, Config.baseLen, hbi]
  rw [exec_cap_of_started hb (by simp [ha]), captureTick_of_pass2 hk,
    passTick_of_last_data _ ha (by simp [hbi, State.extPass, Config.baseLen]), hstore]
  rfl

/-- A DATA observation of CAP that is not the last of its pass stores its bit and turns to what follows it. -/
theorem exec_cap_of_data {s : State} (hb : s.Busy) (hk : s.kph = .pass1 ∨ s.kph = .pass2) (ha : s.act = .data)
    (hbi : s.bi < 15) (hspin : 1 ≤ s.params.spinTicks) :
    exec .cap s = .next { (s.afterObs .data).bufWrite ((if s.kph = .pass1 then 0 else 16) + s.bi)
        (!s.observed .data) with
      bi := s.bi + 1, act := if s.strat then .spin else .clock, sc := if s.strat then s.spinLength else s.sc } := by
  obtain ⟨k, htick⟩ := exec_cap_of_pass hb (by simp [ha]) hk
  rw [htick, passTick_of_data k ha (by rw [capturePass_n]; omega), nextBit_of_pos (by simpa [storeBit] using hspin)]
  simp [storeBit, State.spinLength]

/-- A wait of CAP is one observation a tick. -/
theorem exec_cap_of_wait {s : State} {line : Line} (hb : s.Busy) (hk : s.kph = .pass1 ∨ s.kph = .pass2)
    (hw : s.PassWaits line) :
    exec .cap s = .next (edgeWait .falling line (afterPassWait s.capturePass line) s) := by
  obtain ⟨k, htick⟩ := exec_cap_of_pass hb hw.act_ne_accept hk
  rw [htick, passTick_of_wait k hw]

theorem exec_cap_of_spin {s : State} (hb : s.Busy) (hk : s.kph = .pass1 ∨ s.kph = .pass2) (ha : s.act = .spin) :
    exec .cap s = .next { s with sc := s.sc - 1, act := if s.sc ≤ 1 then .data else .spin } := by
  obtain ⟨k, htick⟩ := exec_cap_of_pass hb (by simp [ha]) hk
  simp [htick, passTick, ha, Nat.sub_eq_zero_iff_le]

/-- Settles O51: the ticks inside a pass, then the ends of the base pass and of the extension pass. -/
theorem capSamplesClassifiesAndCompletes : Obligations.CapSamplesClassifiesAndCompletes := by
  refine ⟨fun s hb hk hspin => ⟨fun ha hbi => exec_cap_of_data hb hk ha hbi hspin, exec_cap_of_spin hb hk,
      fun ha => ?clock, fun ha hl => ?latch⟩,
    fun s hb ha hbi => ⟨fun hk hw hspin => ⟨exec_cap_of_base_frame hb ha hbi hk hw,
      exec_cap_of_extended_frame hb ha hbi hk hw hspin⟩, exec_cap_of_ext_end hb ha hbi⟩⟩
  case clock =>
    rw [exec_cap_of_wait hb hk (.inr ⟨ha, rfl⟩), edgeWait_falling]
    rfl
  case latch =>
    rw [exec_cap_of_wait hb hk (.inl ⟨ha, rfl⟩), edgeWait_falling]
    simp [afterPassWait, afterLatch_of_pos, hspin, capturePass_lead hl]

end Sys2Proof.Machine

namespace Sys2Proof.Machine

/-! ### The ticks of SMPS and SMPL (R80, R82) -/

/-- The start of a pass that does not wait for LATCH leads with its spin, its DATA or its CLOCK wait (R78, R81). -/
theorem startPass_of_pos {p : Pass} {s : State} (h : 1 ≤ s.params.spinTicks) :
    startPass p s = { s with
      bi := 0, ews := .pre
      sc := if !p.latchFirst && (p.legacy && p.lead) then s.spinLength else s.sc
      act := if p.latchFirst then .latch else if p.legacy then (if p.lead then .spin else .data) else .clock } := by
  cases hl : p.latchFirst
  · rw [startPass, if_neg (by simp [hl]), afterLatch_of_pos (s := { s with bi := 0, ews := .pre }) h]
    rfl
  · simp [startPass, hl]

/-- Past its acceptance tick, a tick of SMPS or SMPL is a tick of its pass. -/
theorem command_sampleTick_of_started {s : State} (i : Instr) (p : Pass) (hb : s.Busy) (ha : s.act ≠ .accept) :
    command i (sampleTick p) s = passTick p complete s :=
  (command_busy hb).trans (sampleTick_of_started ha)

theorem passTick_of_spin {p : Pass} (k : State → State) {s : State} (ha : s.act = .spin) :
    passTick p k s = .next { s with sc := s.sc - 1, act := if s.sc ≤ 1 then .data else .spin } := by
  simp [passTick, ha, Nat.sub_eq_zero_iff_le]

/-- Settles O29: in range, the acceptance tick starts the pass. -/
theorem samplingCommandsBegin : Obligations.SamplingCommandsBegin := by
  intro s l p idx nm1 hidle hspin hfit
  have hrange : passInRange idx nm1 = true := passInRange_iff.mpr hfit
  refine ⟨(command_idle (i := .smps l idx nm1) hidle hrange).trans (congrArg Host.Outcome.next ?smps),
    (command_idle (i := .smpl l p idx nm1) hidle hrange).trans (congrArg Host.Outcome.next ?smpl)⟩
  case smps =>
    rw [startPass_of_pos (by simpa using hspin)]
    cases l <;> rfl
  case smpl =>
    rw [startPass_of_pos (by simpa using hspin)]
    rfl

/-- Settles O31: a pass of nm1 + 1 bits has more to store until BI is nm1. -/
theorem smpsStoresTheNegatedLevel : Obligations.SmpsStoresTheNegatedLevel := by
  intro s l idx nm1 hb ha
  have htick : exec (.smps l idx nm1) s = passTick (smpsPass l idx nm1) complete s :=
    command_sampleTick_of_started _ _ hb (by simp [ha])
  refine ⟨fun hbi => htick.trans ?more, fun hbi => htick.trans ?last⟩
  case more => exact passTick_of_data complete ha (Nat.succ_lt_succ hbi)
  case last => exact passTick_of_last_data complete ha (Nat.succ_le_succ hbi.ge)

/-- Settles O32: the DATA observation, the spin and the LATCH wait of a pass in the legacy strategy. -/
theorem smplSamplesAndSpins : Obligations.SmplSamplesAndSpins := by
  intro s l p idx nm1 hb hspin
  have htick (ha : s.act ≠ .accept) : exec (.smpl l p idx nm1) s = passTick (smplPass l p idx nm1) complete s :=
    command_sampleTick_of_started _ _ hb ha
  refine ⟨fun ha hbi => (htick (by simp [ha])).trans ?more, fun ha hbi => (htick (by simp [ha])).trans ?last,
    fun ha => (htick (by simp [ha])).trans (passTick_of_spin complete ha),
    fun ha => (htick (by simp [ha])).trans ?latch⟩
  case more =>
    rw [passTick_of_data complete ha (Nat.succ_lt_succ hbi), nextBit_of_pos (by simpa [storeBit] using hspin)]
    simp [storeBit, smplPass, State.spinLength]
  case last => exact passTick_of_last_data complete ha (Nat.succ_le_succ hbi.ge)
  case latch =>
    rw [passTick_of_wait complete (.inl ⟨ha, rfl⟩), edgeWait_falling]
    simp [afterPassWait, afterLatch_of_pos, hspin, smplPass, State.spinLength]

/-! ### The timed bits of a pass (R81, R83) -/

section
variable {s : State} {p : Pass} {k : State → State} {d dr : List Bool}

/-- A spin with n + 1 ticks left keeps the block busy through them and turns to DATA in the last. -/
theorem State.RunsPass.spin (h : s.RunsPass p k) (n : Nat) :
    State.BusyUntil { s with act := .spin, sc := n + 1 } (n + 1) { s with act := .data, sc := 0 } := by
  induction n with
  | zero => exact .of_step h.1 (h.2 { s with act := .spin, sc := 1 } rfl nofun)
  | succ n ih =>
    have hfirst : State.BusyUntil { s with act := .spin, sc := n + 2 } 1 { s with act := .spin, sc := n + 1 } :=
      .of_step h.1 (h.2 { s with act := .spin, sc := n + 2 } rfl nofun)
    exact Nat.add_comm 1 (n + 1) ▸ hfirst.trans ih

/-- A spin of S ticks (R7, R81). -/
theorem State.RunsPass.startSpin (h : s.RunsPass p k) (hspin : 1 ≤ s.params.spinTicks) :
    (startSpin s).BusyUntil s.spinLength { s with act := .data, sc := 0 } := by
  obtain ⟨n, hn⟩ : ∃ n, s.spinLength = n + 1 := by
    refine Nat.exists_eq_add_one.mpr ?_
    unfold State.spinLength
    split <;> omega
  rw [startSpin_of_pos hspin, hn]
  exact h.spin n

/-- s after the bit BI of the pass p, sampled at the level v. -/
def State.timedBit (s : State) (p : Pass) (v : Bool) (dr : List Bool) : State :=
  { s.bufWrite (p.idx + s.bi) (!v) with bi := s.bi + 1, dataAns := dr }

/-- The timed bits of a pass up to its last: a DATA observation each, and a spin between every two. -/
theorem State.RunsPass.timedBits (h : s.RunsPass p k) (hp : p.legacy = true) (hspin : 1 ≤ s.params.spinTicks)
    (hfit : p.idx + p.n ≤ 32) (hne : d ≠ []) (ha : s.act = .data) (hcount : s.bi + d.length = p.n)
    (hdata : s.dataAns = d ++ dr) :
    ∃ t, s.BusyUntil (d.length + (d.length - 1) * s.spinLength) (k t) ∧
      s.AfterBits t (p.idx + s.bi) d s.latchAns s.clockAns dr := by
  induction d generalizing s with
  | nil => exact absurd rfl hne
  | cons v d ih =>
    rw [List.length_cons] at hcount
    have hstore : storeBit p s = s.timedBit p v (d ++ dr) := storeBit_of_answers hdata
    have hstep : step s = passTick p k s := h.2 s rfl (by simp [ha])
    have hafter : s.AfterBits (s.timedBit p v (d ++ dr)) (p.idx + s.bi) [v] s.latchAns s.clockAns (d ++ dr) :=
      { moves := rfl, sampled := sampled_bufWrite s v (by omega), latch := rfl, clock := rfl, data := rfl }
    by_cases hd : d = []
    · subst hd
      rw [passTick_of_last_data k ha hcount.ge, hstore] at hstep
      exact ⟨_, by simpa using .of_step h.1 hstep, hafter⟩
    · have hpos := List.length_pos_iff.mpr hd
      rw [passTick_of_data k ha (by omega), hstore, nextBit, if_pos hp] at hstep
      have hgap := (h.moves hafter.moves).startSpin hspin
      have hagain : s.AfterBits { s.timedBit p v (d ++ dr) with act := .data, sc := 0 } (p.idx + s.bi) [v]
          s.latchAns s.clockAns (d ++ dr) := { hafter with moves := rfl }
      obtain ⟨t, hrun, ht⟩ := ih (h.moves hagain.moves) hspin hd rfl ((Nat.succ_add ..).trans hcount) rfl
      have hticks : (v :: d).length + ((v :: d).length - 1) * s.spinLength =
          1 + (s.spinLength + (d.length + (d.length - 1) * s.spinLength)) := by
        obtain ⟨n, hn⟩ := Nat.exists_eq_add_one.mpr hpos
        rw [List.length_cons, hn]
        simp only [Nat.add_sub_cancel]
        ring
      rw [hticks]
      exact ⟨t, (State.BusyUntil.of_step h.1 hstep).trans (hgap.trans hrun), hagain.append ht⟩

end

/-! ### A whole pass in either strategy, and a whole SMPL (R82) -/

/-- A timed pass comes to its first DATA observation at once, or through its leading spin (R81). -/
theorem State.RunsPass.leadingSpin {s : State} {p : Pass} {k : State → State} (h : s.RunsPass p k)
    (hp : p.legacy = true) (hspin : 1 ≤ s.params.spinTicks) :
    ∃ c, (afterLatch p s).BusyUntil (if p.lead then s.spinLength else 0) { s with act := .data, sc := c } := by
  unfold afterLatch
  rw [if_pos hp]
  split
  · exact ⟨0, h.startSpin hspin⟩
  · exact ⟨s.sc, .refl _⟩

/-- The ticks from the LATCH edge of a timed pass on, with spins of S ticks (R81, R83). -/
def Pass.timedTicks (p : Pass) (spin : Nat) : Nat := (if p.lead then spin else 0) + (p.n + (p.n - 1) * spin)

/-- A timed pass, from its start to the tick of its last bit, in which k follows. -/
theorem State.RunsPass.timedPass {s : State} {p : Pass} {k : State → State} {wl : Nat × Nat} {d lr dr : List Bool}
    (h : s.RunsPass p k) (hp : p.legacy = true) (hspin : 1 ≤ s.params.spinTicks) (hfit : p.idx + p.n ≤ 32)
    (hne : d ≠ []) (hd : d.length = p.n) (hl : s.latchAns = (if p.latchFirst then edgeAnswers wl else []) ++ lr)
    (hdr : s.dataAns = d ++ dr) :
    ∃ t, (startPass p s).BusyUntil ((if p.latchFirst then edgeTicks wl else 0) + p.timedTicks s.spinLength) (k t) ∧
      s.AfterBits t p.idx d lr s.clockAns dr := by
  have hbegun : PassMoves s (s.begun lr) := rfl
  obtain ⟨c, hlead⟩ := (h.moves hbegun).leadingSpin hp hspin
  have hmoves : PassMoves s { s.begun lr with act := .data, sc := c } := rfl
  obtain ⟨t, hbits, hafter⟩ := (h.moves hmoves).timedBits hp hspin hfit hne rfl ((Nat.zero_add _).trans hd) hdr
  rw [hd] at hbits
  exact ⟨t, (h.latchWait hl).trans (hlead.trans hbits), { hafter with moves := hmoves.trans hafter.moves }⟩

/-- Settles O34: the acceptance tick starts a timed pass, and the command completes in the tick of its last bit. -/
theorem smplCapturesAWholePass : Obligations.SmplCapturesAWholePass := by
  intro s l p idx nm1 wl d lr dr hidle hwf hspin hq hd hlatch hdata spin ticks
  have hstep : step s = .next (startPass (smplPass l p idx nm1) (accept (.smpl l p idx nm1) s.openTick)) :=
    step_of_cmdWrite hidle hwf hq fun _ => rfl
  have hruns : (accept (.smpl l p idx nm1) s.openTick).RunsPass (smplPass l p idx nm1) complete :=
    runsPass_of_sampleTick (settled_accept _ hq) ⟨hidle.1, rfl⟩ rfl fun _ => rfl
  obtain ⟨t, hrun, hafter⟩ := hruns.timedPass rfl hspin (passInRange_iff.mp hwf)
    (List.ne_nil_of_length_eq_add_one hd) hd hlatch hdata
  have hticks : 1 + ((if l then edgeTicks wl else 0) + (smplPass l p idx nm1).timedTicks spin) = ticks := by
    change 1 + (_ + ((if p then spin else 0) + (nm1.toNat + 1 + nm1.toNat * spin))) = ticks
    omega
  have hwhole := hrun.after_step hstep
  obtain ⟨hreach, hbusy⟩ := hticks ▸ hwhole
  obtain ⟨-, hlen, hfault, ⟨hout, -⟩, -, his, -⟩ := hafter.moves.frame
  exact ⟨⟨complete t, hreach, ⟨hfault.1.trans hidle.1, rfl⟩, hafter.sampled, hafter.latch, hafter.clock,
    hafter.data, hlen, his, hout, hfault⟩, hbusy⟩

/-! ### A whole pass in the strategy it asks for -/

/-- The device gives the pass p every edge it waits for, and the levels d, from the pass's start in s on. -/
structure State.GivesPass (s : State) (p : Pass) (wl : Nat × Nat) (ws : List (Nat × Nat)) (d lr cr dr : List Bool) :
    Prop where
  count : d.length = p.n
  edges : ws.length = if p.legacy then 0 else d.length
  latch : s.latchAns = (if p.latchFirst then edgeAnswers wl else []) ++ lr
  clock : s.clockAns = ws.flatMap edgeAnswers ++ cr
  data : s.dataAns = d ++ dr

/-- The ticks of the pass p from its start in s on (R144). -/
def State.passTicks (s : State) (p : Pass) (wl : Nat × Nat) (ws : List (Nat × Nat)) : Nat :=
  (if p.latchFirst then edgeTicks wl else 0) + if p.legacy then p.timedTicks s.spinLength else clockedTicks ws

/-- A pass in either strategy, from its start to the tick of its last bit, in which k follows. -/
theorem State.RunsPass.wholePass {s : State} {p : Pass} {k : State → State} {wl : Nat × Nat} {ws : List (Nat × Nat)}
    {d lr cr dr : List Bool} (h : s.RunsPass p k) (hspin : 1 ≤ s.params.spinTicks) (hfit : p.idx + p.n ≤ 32)
    (hpos : 0 < p.n) (hg : s.GivesPass p wl ws d lr cr dr) :
    ∃ t, (startPass p s).BusyUntil (s.passTicks p wl ws) (k t) ∧ s.AfterBits t p.idx d lr cr dr := by
  obtain ⟨hd, hws, hl, hc, hdr⟩ := hg
  have hne : d ≠ [] := List.ne_nil_of_length_pos (hd ▸ hpos)
  unfold State.passTicks
  cases hp : p.legacy with
  | true =>
    rw [hp, if_pos rfl] at hws
    obtain rfl := List.eq_nil_of_length_eq_zero hws
    obtain rfl : s.clockAns = cr := hc
    exact h.timedPass hp hspin hfit hne hd hl hdr
  | false =>
    rw [hp] at hws
    exact h.clockedPass hp hfit hne hd hws hl hc hdr

/-! ### Sampled entries and what they say of the frame -/

section
variable {s t : State} {d : List Bool}

theorem Sampled.bufRead (h : Sampled s t 0 d) {j : Nat} (hj : j < d.length) (hcap : j < 32) :
    t.bufRead j = !d.getD j true := by
  rw [(h j hcap).1, if_pos (by omega), Nat.sub_zero]

theorem Sampled.written (h : Sampled s t 0 d) {j : Nat} (hj : j < d.length) (hcap : j < 32) :
    t.written j = true := by
  rw [(h j hcap).2, if_pos (by omega)]

/-- The raw levels d of a base frame's entries ask for the extension: marker m or not t (R87). -/
def levelsExtended (d : List Bool) : Bool := !d.getD 15 true || d.getD 13 true

theorem Sampled.classified (h : Sampled s t 0 d) (hd : 16 ≤ d.length) : t.classified = levelsExtended d := by
  unfold State.classified
  rw [show Config.markM = 15 from rfl, show Config.markT = 13 from rfl, h.bufRead (j := 15) (by omega) (by omega),
    h.bufRead (j := 13) (by omega) (by omega), levelsExtended]
  cases d.getD 15 true <;> cases d.getD 13 true <;> rfl

/-- The compact frame of sampled entries: the marker for a low level (R91). -/
theorem Sampled.compactBytes (h : Sampled s t 0 d) (hd : d.length ≤ 32) :
    t.compactBytes 0 d.length = d.map (fun v => if v then 0x00 else t.params.oneMarker) ++ [0x0A] := by
  unfold State.compactBytes entries
  refine congrArg (· ++ _) (List.ext_getElem (by simp) fun j hj _ => ?_)
  have hlt : j < d.length := by simpa using hj
  have hread := h.bufRead hlt (by omega)
  rw [List.getD_eq_getElem _ _ hlt] at hread
  cases hv : d[j] <;> simp [hread, hv, Config.zeroByte]

end

/-! ### The length of a frame (R91, R96) -/

@[simp] theorem entries_length (lo hi : Nat) : (entries lo hi).length = hi - lo := List.length_range'

theorem compactBytes_length (s : State) (start count : Nat) : (s.compactBytes start count).length = count + 1 := by
  simp [State.compactBytes]

/-- A separator stands before every eighth digit but the first. -/
theorem groupedDigits_length (s : State) (start n : Nat) :
    ((entries 0 n).flatMap (s.groupedDigit start)).length = n + (n - 1) / 8 := by
  induction n with
  | zero => rfl
  | succ n ih =>
    have hlast : entries 0 (n + 1) = entries 0 n ++ [n] := by simp [entries, List.range'_1_concat]
    rw [hlast, List.flatMap_append, List.length_append, ih, List.flatMap_singleton, State.groupedDigit]
    split <;> simp <;> omega

theorem trailingSeparator_length (s : State) (count : Nat) :
    (s.trailingSeparator count).length =
      if s.params.dbgTrailingSep then count / 8 - (count - 1) / 8 else 0 := by
  unfold State.trailingSeparator
  cases s.params.dbgTrailingSep
  · simp
  · by_cases h : 0 < count ∧ count % 8 = 0 <;> simp [h] <;> omega

theorem debugBytes_length (s : State) (start count : Nat) :
    (s.debugBytes start count).length =
      start + count + (if s.params.dbgTrailingSep then count / 8 else (count - 1) / 8) + 2 := by
  simp only [State.debugBytes, List.length_append, groupedDigits_length, trailingSeparator_length, List.length_map,
    entries_length, List.length_singleton]
  split <;> omega

/-! ### A whole capture (R103) -/

/-- u is s but for what a capture moves: what its passes move, FL, EXT and KPH. -/
def CaptureMoves (s u : State) : Prop :=
  PassMoves { s with fl := u.fl, ext := u.ext, kph := u.kph } u

theorem PassMoves.captureMoves {s u : State} (h : PassMoves s u) : CaptureMoves s u := by
  obtain ⟨-, ⟨hfl, hext⟩, -, -, ⟨-, -, -, hkph⟩, -⟩ := h.frame
  unfold CaptureMoves
  rw [hfl, hext, hkph]
  exact h

theorem CaptureMoves.trans {s t u : State} (h : CaptureMoves s t) (g : CaptureMoves t u) : CaptureMoves s u :=
  Eq.trans g (by rw [show t = _ from h])

/-- What a capture leaves alone that its passes and what follows it go by. -/
theorem CaptureMoves.frame {s u : State} (h : CaptureMoves s u) :
    SameSetting s u ∧ SameFault s u ∧ SameOutput s u ∧ u.busy = s.busy ∧ u.cur = s.cur := by
  rw [show u = _ from h]
  simp

/-- Wherever the capture moves s, a tick is a tick of the capture, and k follows its end. -/
def State.RunsCapture (s : State) (k : State → State) : Prop :=
  s.Busy ∧ ∀ u, CaptureMoves s u → u.act ≠ .accept → step u = captureTick k u

section
variable {s t : State} {k : State → State} {wl wx : Nat × Nat} {ws : List (Nat × Nat)} {d lr cr dr : List Bool}

theorem State.RunsCapture.moves (h : s.RunsCapture k) (ht : CaptureMoves s t) : t.RunsCapture k := by
  obtain ⟨-, ⟨hflt, -⟩, -, hbusy, -⟩ := ht.frame
  exact ⟨⟨hflt.trans h.1.1, hbusy.trans h.1.2⟩, fun u hu => h.2 u (ht.trans hu)⟩

theorem CaptureMoves.extPass_eq (h : CaptureMoves s t) : t.extPass = s.extPass := by
  rw [show t = _ from h]
  rfl

theorem CaptureMoves.passTicks_eq (h : CaptureMoves s t) : t.passTicks = s.passTicks := by
  rw [show t = _ from h]
  rfl

theorem State.RunsCapture.basePass (h : s.RunsCapture k) (hk : s.kph = .pass1) :
    s.RunsPass s.basePass (afterBasePass k) := by
  refine ⟨h.1, fun u hu ha => ?_⟩
  rw [h.2 u hu.captureMoves ha, captureTick_of_pass1 (by rw [hu]; exact hk),
    show u.basePass = s.basePass by rw [hu]; rfl]

theorem State.RunsCapture.extPass (h : s.RunsCapture k) (hk : s.kph = .pass2) :
    s.RunsPass s.extPass (afterExtPass k) := by
  refine ⟨h.1, fun u hu ha => ?_⟩
  rw [h.2 u hu.captureMoves ha, captureTick_of_pass2 (by rw [hu]; exact hk),
    show u.extPass = s.extPass by rw [hu]; rfl]

/-- A capture of a base or extended frame takes 16 or 32 levels. -/
theorem frameLevels_le (hd : d.length = if levelsExtended d then 32 else 16) : 16 ≤ d.length ∧ d.length ≤ 32 := by
  rw [hd]
  split <;> simp

/-- The device gives a capture from s on every edge it waits for, and the levels d, as many as they ask for. -/
structure State.GivesFrame (s : State) (wl wx : Nat × Nat) (ws : List (Nat × Nat)) (d lr cr dr : List Bool) :
    Prop where
  count : d.length = if levelsExtended d then 32 else 16
  edges : ws.length = if s.strat then 0 else d.length
  latch : s.latchAns =
    edgeAnswers wl ++ (if levelsExtended d && s.params.relatchOnExt then edgeAnswers wx else []) ++ lr
  clock : s.clockAns = ws.flatMap edgeAnswers ++ cr
  data : s.dataAns = d ++ dr

theorem State.GivesFrame.no_more_edges (h : s.GivesFrame wl wx ws d lr cr dr) (hx : levelsExtended d = false) :
    ws.drop 16 = [] := by
  refine List.drop_eq_nil_of_le ?_
  rw [h.edges, h.count, hx]
  split <;> simp

theorem State.GivesFrame.basePass (h : s.GivesFrame wl wx ws d lr cr dr) :
    s.GivesPass s.basePass wl (ws.take 16) (d.take 16)
      ((if levelsExtended d && s.params.relatchOnExt then edgeAnswers wx else []) ++ lr)
      ((ws.drop 16).flatMap edgeAnswers ++ cr) (d.drop 16 ++ dr) where
  count := List.length_take_of_le (frameLevels_le h.count).1
  edges := by
    have hle := (frameLevels_le h.count).1
    rw [List.length_take, List.length_take, h.edges, show s.basePass.legacy = s.strat from rfl]
    split <;> simp
  latch := h.latch.trans (List.append_assoc ..)
  clock := by
    rw [h.clock, ← List.append_assoc, ← List.flatMap_append, List.take_append_drop]
  data := by
    rw [h.data, ← List.append_assoc, List.take_append_drop]

/-- The base frame's own levels decide on the extension. -/
theorem levelsExtended_take (d : List Bool) : levelsExtended (d.take 16) = levelsExtended d := by
  simp [levelsExtended, List.getD_eq_getElem?_getD]

/-- The end of a base pass that has stored its levels (R87, R103). -/
theorem afterBasePass_of_sampled (k : State → State) (h : Sampled s t 0 d) (hd : d.length = 16) :
    afterBasePass k t =
      if levelsExtended d then startPass t.extPass { t with ext := true, kph := .pass2 }
      else k { t with ext := false, kph := .classify } := by
  have hclass : State.classified { t with kph := .classify } = levelsExtended d := h.classified hd.ge
  rw [afterBasePass_of_written (h.written (by omega) (by omega)) (h.written (by omega) (by omega)), classifyFrame,
    hclass]
  rfl

/-- A capture of the levels d that began in s has ended in t, with the answers lr, cr and dr left. -/
structure State.AfterCapture (s t : State) (d lr cr dr : List Bool) : Prop where
  moves : CaptureMoves s t
  sampled : Sampled s t 0 d
  fl : t.fl = levelsExtended d
  ext : t.ext = levelsExtended d
  latch : t.latchAns = lr
  clock : t.clockAns = cr
  data : t.dataAns = dr

/-- The ticks of a capture of the levels d from its start in s on (R103, R144). -/
def State.captureTicks (s : State) (wl wx : Nat × Nat) (ws : List (Nat × Nat)) (d : List Bool) : Nat :=
  s.passTicks s.basePass wl (ws.take 16) + if levelsExtended d then s.passTicks s.extPass wx (ws.drop 16) else 0

/-- The answers the base pass of an extended frame has left are those of its extension pass. -/
theorem State.GivesFrame.extPass (h : s.GivesFrame wl wx ws d lr cr dr) (hx : levelsExtended d = true)
    (hl : t.latchAns = (if levelsExtended d && s.params.relatchOnExt then edgeAnswers wx else []) ++ lr)
    (hc : t.clockAns = (ws.drop 16).flatMap edgeAnswers ++ cr) (hd : t.dataAns = d.drop 16 ++ dr) :
    t.GivesPass s.extPass wx (ws.drop 16) (d.drop 16) lr cr dr where
  count := by
    rw [List.length_drop, h.count, if_pos hx]
    rfl
  edges := by
    rw [List.length_drop, List.length_drop, h.edges, show s.extPass.legacy = s.strat from rfl]
    split <;> rfl
  latch := by
    rw [hl, hx, Bool.true_and]
    rfl
  clock := hc
  data := hd

/-- The extension pass of a capture whose base pass has ended in t, up to the end of the capture (R103). -/
theorem State.RunsCapture.extension (h : s.RunsCapture k) (hspin : 1 ≤ s.params.spinTicks)
    (hg : s.GivesFrame wl wx ws d lr cr dr) (hx : levelsExtended d = true)
    (ht : s.AfterBits t 0 (d.take 16) ((if levelsExtended d && s.params.relatchOnExt then edgeAnswers wx else []) ++ lr)
      ((ws.drop 16).flatMap edgeAnswers ++ cr) (d.drop 16 ++ dr)) :
    ∃ u, (startPass t.extPass { t with ext := true, kph := .pass2 }).BusyUntil
        (s.passTicks s.extPass wx (ws.drop 16)) (k u) ∧ s.AfterCapture u d lr cr dr := by
  have hmoves : CaptureMoves s { t with ext := true, kph := .pass2 } := ht.moves.captureMoves.trans rfl
  have hpass : t.extPass = s.extPass := hmoves.extPass_eq
  have hruns : State.RunsPass { t with ext := true, kph := .pass2 } s.extPass (afterExtPass k) :=
    hpass ▸ (h.moves hmoves).extPass rfl
  obtain ⟨⟨hparams, -⟩, -⟩ := hmoves.frame
  obtain ⟨hpos, hfit⟩ := extPass_fits s
  obtain ⟨u, hrun, hu⟩ := hruns.wholePass (by rw [hparams]; exact hspin) hfit hpos
    (hg.extPass hx ht.latch ht.clock ht.data)
  rw [hmoves.passTicks_eq] at hrun
  rw [hpass]
  have hlast : Sampled t u (0 + (d.take 16).length) (d.drop 16) := by
    rw [List.length_take_of_le (frameLevels_le hg.count).1]
    exact hu.sampled
  obtain ⟨-, ⟨-, hext⟩, -⟩ := hu.moves.frame
  refine ⟨{ u with fl := true }, hrun, ?_⟩
  exact
    { moves := hmoves.trans (hu.moves.captureMoves.trans rfl)
      sampled := List.take_append_drop 16 d ▸ ht.sampled.append hlast
      fl := hx.symm
      ext := hext.trans hx.symm
      latch := hu.latch, clock := hu.clock, data := hu.data }

/-- A whole capture, from its start to the tick of its last bit, in which k follows (R103). -/
theorem State.RunsCapture.wholeCapture (h : s.RunsCapture k) (hk : s.kph = .pass1) (hfl : s.fl = false)
    (hspin : 1 ≤ s.params.spinTicks) (hg : s.GivesFrame wl wx ws d lr cr dr) :
    ∃ u, (startPass s.basePass s).BusyUntil (s.captureTicks wl wx ws d) (k u) ∧ s.AfterCapture u d lr cr dr := by
  obtain ⟨hpos, hfit⟩ := basePass_fits s
  obtain ⟨t, hbase, ht⟩ := (h.basePass hk).wholePass hspin hfit hpos hg.basePass
  have htake : (d.take 16).length = 16 := List.length_take_of_le (frameLevels_le hg.count).1
  rw [afterBasePass_of_sampled k ht.sampled htake, levelsExtended_take] at hbase
  unfold State.captureTicks
  split at hbase
  · next hx =>
    obtain ⟨u, hext, hu⟩ := h.extension hspin hg hx ht
    rw [if_pos hx]
    exact ⟨u, hbase.trans hext, hu⟩
  · next hx =>
    have hx' : levelsExtended d = false := by simpa using hx
    have hcount : d.length = 16 := by simpa [hx'] using hg.count
    have hdrop : d.drop 16 = [] := List.drop_eq_nil_of_le hcount.le
    obtain ⟨-, ⟨hkeep, -⟩, -⟩ := ht.moves.frame
    rw [if_neg hx]
    refine ⟨_, hbase, ?_⟩
    exact
      { moves := ht.moves.captureMoves.trans rfl
        sampled := List.take_of_length_le hcount.le ▸ ht.sampled
        fl := (hkeep.trans hfl).trans hx'.symm
        ext := hx'.symm
        latch := by simpa [hx'] using ht.latch
        clock := by simpa [hg.no_more_edges hx'] using ht.clock
        data := by simpa [hdrop] using ht.data }

end

/-! ### Runs that show something on the ports -/

/-- A host with nothing to do: what the ports show takes no part in the next tick. -/
theorem State.BusyUntil.of_openTick {k : Nat} {s t : State} (hq : s.hostq = []) (hb : s.Busy)
    (h : s.openTick.BusyUntil (k + 1) t) : s.BusyUntil (k + 1) t := by
  refine ⟨reaches_of_openTick hq h.1, fun j hj => ?_⟩
  cases j with
  | zero => exact ⟨s, reaches_zero.mpr rfl, hb⟩
  | succ j =>
    obtain ⟨u, hreach, hbusy⟩ := h.2 (j + 1) hj
    exact ⟨u, reaches_of_openTick hq hreach, hbusy⟩

/-! ### A whole emission (R92, R95, R104) -/

/-- s with the bytes to send and the bytes sent given. -/
def State.sending (s : State) (oq out : List Byte) : State := { s with act := .send, oq := oq, out := out }

/-- Wherever the emission moves s, a tick sends the next byte, and k follows the last. -/
def State.RunsEmission (s : State) (k : State → State) : Prop :=
  s.Settled ∧ s.Busy ∧ ∀ oq out, step (s.sending oq out) = sendTick k (s.sending oq out)

/-- An emission takes its queue to OUT, one byte a tick, and k follows in the tick of the last byte. -/
theorem State.RunsEmission.wholeEmission {s : State} {k : State → State} (h : s.RunsEmission k) (b : Byte)
    (rest out : List Byte) :
    (s.sending (b :: rest) out).BusyUntil (rest.length + 1)
      (k { s.sending [] (out ++ b :: rest) with tx := (b :: rest).getLast? }) := by
  obtain ⟨hset, hb, hticks⟩ := h
  induction rest generalizing b out with
  | nil => exact .of_step hb (hticks [b] out)
  | cons c rest ih =>
    have hopen : ((s.sending (c :: rest) out).transmit b).openTick = s.openTick.sending (c :: rest) (out ++ [b]) := rfl
    rw [hset.openTick_eq] at hopen
    have hrest := ih c (out ++ [b])
    rw [← hopen, List.append_assoc] at hrest
    rw [List.getLast?_cons_cons, List.length_cons, Nat.add_comm (rest.length + 1)]
    exact .trans (.of_step hb (hticks (b :: c :: rest) out)) (.of_openTick hset.1 hb hrest)

/-! ### A whole delay (R102) -/

/-- s with n ticks of the delay to come. -/
def State.delaying (s : State) (n : Nat) : State := { s with act := .delay, dc := n }

/-- Wherever the delay moves s, a tick counts one down, and k follows the last. -/
def State.RunsDelay (s : State) (k : State → State) : Prop :=
  s.Busy ∧ ∀ n, step (s.delaying n) = delayTick k (s.delaying n)

theorem State.RunsDelay.wholeDelay {s : State} {k : State → State} (h : s.RunsDelay k) (n : Nat) :
    (s.delaying (n + 1)).BusyUntil (n + 1) (k (s.delaying 0)) := by
  induction n with
  | zero => exact .of_step h.1 (h.2 1)
  | succ n ih =>
    have hfirst : (s.delaying (n + 2)).BusyUntil 1 (s.delaying (n + 1)) := .of_step h.1 (h.2 (n + 2))
    exact Nat.add_comm 1 (n + 1) ▸ hfirst.trans ih

/-- A delay from its start, with what the ports show of the tick before it, to its end (R102). -/
theorem State.RunsDelay.startDelay {s : State} {k : State → State} (h : s.openTick.RunsDelay k) (hq : s.hostq = [])
    (hb : s.Busy) :
    ∃ t, (startDelay k s).BusyUntil s.params.interCycleTicks (k t) ∧
      t = { s with act := t.act, dc := 0, tx := t.tx, rdata := t.rdata } := by
  unfold Machine.startDelay
  split
  · next hzero =>
    rw [hzero]
    exact ⟨{ s with dc := 0 }, .refl _, rfl⟩
  · next hpos =>
    obtain ⟨n, hn⟩ := Nat.exists_eq_add_one.mpr (Nat.pos_of_ne_zero hpos)
    rw [hn]
    refine ⟨s.openTick.delaying 0, .of_openTick hq hb (h.wholeDelay n), ?_⟩
    simp [State.delaying, State.openTick, hq]

/-! ### The ticks of a capture, counted (R144) -/

theorem clockedTicks_append (ws ws' : List (Nat × Nat)) :
    clockedTicks (ws ++ ws') = clockedTicks ws + clockedTicks ws' := by
  simp [clockedTicks]

theorem passTicks_basePass (s : State) (wl : Nat × Nat) (ws : List (Nat × Nat)) :
    s.passTicks s.basePass wl ws = edgeTicks wl + if s.strat then 16 + 15 * s.spinLength else clockedTicks ws := by
  simp [State.passTicks, Pass.timedTicks, State.basePass, Config.baseLen]

/-- The extension pass waits for LATCH, or in the legacy strategy spins before its first bit, or does neither. -/
theorem passTicks_extPass (s : State) (wx : Nat × Nat) (ws : List (Nat × Nat)) :
    s.passTicks s.extPass wx ws = (if s.params.relatchOnExt then edgeTicks wx else 0) +
      if s.strat then (if s.params.relatchOnExt then 15 else 16) * s.spinLength + 16 else clockedTicks ws := by
  unfold State.passTicks Pass.timedTicks State.extPass Config.baseLen
  cases s.strat <;> cases s.params.relatchOnExt <;> simp <;> omega

/-- A legacy capture spins 15 times in each pass, and once before an extension pass that does not wait for LATCH. -/
theorem State.GivesFrame.captureTicks_eq {s : State} {wl wx : Nat × Nat} {ws : List (Nat × Nat)}
    {d lr cr dr : List Bool} (h : s.GivesFrame wl wx ws d lr cr dr) :
    s.captureTicks wl wx ws d =
      edgeTicks wl + (if levelsExtended d && s.params.relatchOnExt then edgeTicks wx else 0) +
        if s.strat then
          d.length + (if levelsExtended d then (if levelsExtended d && s.params.relatchOnExt then 30 else 31) else 15)
            * s.spinLength
        else clockedTicks ws := by
  have hsplit : clockedTicks ws = clockedTicks (ws.take 16) + clockedTicks (ws.drop 16) := by
    rw [← clockedTicks_append, List.take_append_drop]
  rw [State.captureTicks, passTicks_basePass, passTicks_extPass, h.count, hsplit]
  cases hx : levelsExtended d with
  | false =>
    have hnone : clockedTicks [] = 0 := rfl
    simp [h.no_more_edges hx, hnone]
  | true => cases s.strat <;> cases s.params.relatchOnExt <;> simp <;> omega

/-! ### A whole CYCLE (R105) -/

/-- A settled block in a CYCLE. -/
def State.RunsCycle (s : State) : Prop := s.Settled ∧ s.Busy ∧ s.cur = encode .cycle

theorem step_of_runsCycle {s : State} (h : s.RunsCycle) : step s = cycleTick complete s := by
  obtain ⟨hset, hb, hcur⟩ := h
  exact (step_of_settled hset hb hcur).trans (command_busy hb)

theorem State.RunsCycle.moves {s u : State} (h : s.RunsCycle) (hu : CaptureMoves s u) : u.RunsCycle := by
  rw [show u = _ from hu]
  exact h

/-- In step (d) of a cycle the frame is sent. -/
theorem cycleTick_of_send {k : State → State} {s : State} (ha : s.act = .send) (hc : s.cph = .d) :
    cycleTick k s = sendTick (afterEmission k) s := by
  simp only [cycleTick, ha, hc]

/-- In step (e) of a cycle the delay passes. -/
theorem cycleTick_of_delay {k : State → State} {s : State} (ha : s.act = .delay) (hc : s.cph = .e) :
    cycleTick k s = delayTick k s := by
  simp only [cycleTick, ha, hc]

theorem State.RunsCycle.capture {s : State} (h : s.RunsCycle) (hc : s.cph = .b) : s.RunsCapture afterCapture := by
  refine ⟨h.2.1, fun u hu ha => ?_⟩
  rw [step_of_runsCycle (h.moves hu), cycleTick_of_capture ha (by rw [show u = _ from hu]; exact hc)]

theorem State.RunsCycle.emission {s : State} (h : s.RunsCycle) (hc : s.cph = .d) :
    s.RunsEmission (afterEmission complete) :=
  ⟨h.1, h.2.1, fun oq out =>
    (step_of_runsCycle (s := s.sending oq out) h).trans (cycleTick_of_send rfl hc)⟩

theorem State.RunsCycle.delay {s : State} (h : s.RunsCycle) (hc : s.cph = .e) : s.RunsDelay complete :=
  ⟨h.2.1, fun n => (step_of_runsCycle (s := s.delaying n) h).trans (cycleTick_of_delay rfl hc)⟩

/-- The cycle that stood in s with its frame captured has come to its end t, the bytes sent (R105). -/
def CycleEnds (s : State) (bytes : List Byte) (t : State) : Prop :=
  t = { s with
    is := false, cph := .e, oq := [], out := s.out ++ bytes, dc := 0, act := t.act, tx := t.tx, rdata := t.rdata }

/-- Steps (d) and (e) of a cycle: a tick for each byte and the ticks of the delay. -/
theorem State.RunsCycle.sendAndDelay {s : State} (h : s.RunsCycle) {bytes : List Byte} (hne : bytes ≠ []) :
    ∃ t, State.BusyUntil { s with is := false, cph := .d, oq := bytes, act := .send }
        (bytes.length + s.params.interCycleTicks) (complete t) ∧ CycleEnds s bytes t := by
  obtain ⟨⟨hq, htx, hrd⟩, hb, hcur⟩ := h
  obtain ⟨b, rest, rfl⟩ := List.exists_cons_of_ne_nil hne
  have hcycle : State.RunsCycle { s with is := false, cph := .d } := ⟨⟨hq, htx, hrd⟩, hb, hcur⟩
  have hsend := (hcycle.emission rfl).wholeEmission b rest s.out
  have hsent : State.RunsCycle (State.openTick { s with
      is := false, cph := .e, act := .send, oq := [], out := s.out ++ b :: rest, tx := (b :: rest).getLast? }) :=
    ⟨settled_openTick hq, hb, hcur⟩
  obtain ⟨t, hdelay, ht⟩ := (hsent.delay rfl).startDelay hq hb
  exact ⟨t, hsend.trans hdelay, ht⟩

/-- Step (c): with the frame stored, IS is released and its bytes stand ready (R105, R107). -/
theorem afterCapture_of_stored {s : State} (h : s.FrameStored) :
    afterCapture s = { s with is := false, cph := .d, oq := s.frameBytes, act := .send } :=
  guardWritten_of_written (s := { s with is := false, cph := .d }) h.2

section
variable {s u : State} {d lr cr dr : List Bool}

/-- FLEN after a capture is the number of levels it took. -/
theorem State.AfterCapture.flen (h : s.AfterCapture u d lr cr dr)
    (hd : d.length = if levelsExtended d then 32 else 16) : u.flen = d.length := by
  rw [hd, State.flen, h.fl]
  rfl

theorem State.AfterCapture.frameStored (h : s.AfterCapture u d lr cr dr)
    (hd : d.length = if levelsExtended d then 32 else 16) : u.FrameStored := by
  refine ⟨h.fl.trans h.ext.symm, fun j hj => ?_⟩
  have hcap := (frameLevels_le hd).2
  rw [State.frameEntries, h.flen hd, mem_entries] at hj
  exact h.sampled.written hj.2 (by omega)

/-- The frame of the captured levels in the configured encoding, byte by byte (R91, R94, R97). -/
theorem State.AfterCapture.frameBytes (h : s.AfterCapture u d lr cr dr)
    (hd : d.length = if levelsExtended d then 32 else 16) :
    u.frameBytes = if s.framer then u.debugBytes 0 d.length
      else d.map (fun v => if v then 0x00 else s.params.oneMarker) ++ [0x0A] := by
  have hcap := (frameLevels_le hd).2
  obtain ⟨⟨hparams, -, hframer, -⟩, -⟩ := h.moves.frame
  rw [State.frameBytes, h.flen hd, h.sampled.compactBytes hcap, hframer, hparams]

theorem State.AfterCapture.frameBytes_length (h : s.AfterCapture u d lr cr dr)
    (hd : d.length = if levelsExtended d then 32 else 16) :
    u.frameBytes.length = if s.framer
      then d.length + (if s.params.dbgTrailingSep then d.length / 8 else (d.length - 1) / 8) + 2
      else d.length + 1 := by
  obtain ⟨⟨hparams, -⟩, -⟩ := h.moves.frame
  rw [h.frameBytes hd]
  split
  · rw [debugBytes_length, hparams, Nat.zero_add]
  · simp

end

/-- An idle block's state in the acceptance tick of CYCLE, the base pass still to start (R103, R105). -/
def State.cycleBegun (s : State) : State :=
  { accept .cycle s.openTick with is := true, cph := .b, fl := false, kph := .pass1 }

/-- Settles O55: the acceptance tick starts a capture; its end queues the frame, whose last byte starts the delay. -/
theorem cycleSendsTheCapturedFrame : Obligations.CycleSendsTheCapturedFrame := by
  intro s wl wx ws d lr cr dr hidle hspin hq extended relatched spin spins sampling frameLength hd hws hlatch hclock
    hdata ticks
  have hstep : step s = .next (startPass s.cycleBegun.basePass s.cycleBegun) :=
    step_of_cmdWrite (i := .cycle) hidle rfl hq fun _ => rfl
  have hcycle : s.cycleBegun.RunsCycle := ⟨settled_accept .cycle hq, ⟨hidle.1, rfl⟩, rfl⟩
  have hgives : s.cycleBegun.GivesFrame wl wx ws d lr cr dr := ⟨hd, hws, hlatch, hclock, hdata⟩
  obtain ⟨u, hcapture, hu⟩ := (hcycle.capture rfl).wholeCapture rfl rfl hspin hgives
  obtain ⟨t, hend, ht⟩ := (hcycle.moves hu.moves).sendAndDelay (frameBytes_ne_nil u)
  rw [afterCapture_of_stored (hu.frameStored hd)] at hcapture
  obtain ⟨⟨hparams, -⟩, hfault, ⟨hout, -⟩, -⟩ := hu.moves.frame
  have hticks :
      1 + (s.cycleBegun.captureTicks wl wx ws d + (u.frameBytes.length + u.params.interCycleTicks)) = ticks := by
    rw [hgives.captureTicks_eq, hu.frameBytes_length hd, hparams]
    simp only [ticks, Nat.add_assoc]
    rfl
  have hwhole := (hcapture.trans hend).after_step hstep
  obtain ⟨hreach, hbusy⟩ := hticks ▸ hwhole
  refine ⟨⟨complete t, hreach, ?_⟩, hbusy⟩
  have hbytes := hu.frameBytes hd
  rw [show t = _ from ht]
  refine ⟨⟨hfault.1.trans hidle.1, rfl⟩, hu.sampled, hu.fl, hu.ext, rfl, ?_, hu.latch, hu.clock, hu.data⟩
  exact congrArg₂ (· ++ ·) hout hbytes

end Sys2Proof.Machine

namespace Sys2Proof.Machine

/-! ### The tick of DET (R86, R87) -/

/-- R87: `Classify(m, t)` is m or not t. -/
theorem classify_eq (m t : Bool) : classify m t = (m || !t) := by
  cases m <;> rfl

/-- The written check faults on the first unwritten entry (R86, R90). -/
theorem guardWritten_of_firstUnwritten {l : List Nat} {k : State → State} {s : State} {j : Nat}
    (h : s.firstUnwritten l = some j) :
    guardWritten l k s = raiseFault .unwrittenRead (unwrittenInfo j s.cur) s := by
  simp only [guardWritten, h]

theorem forall_mem_markerEntries {P : Nat → Prop} : (∀ j ∈ markerEntries, P j) ↔ P 13 ∧ P 15 := by
  simp [markerEntries, Config.markT, Config.markM]

/-- The check of the marker entries looks at entry 13 first. -/
theorem firstUnwritten_markerEntries {s : State} (h : s.written 13 = false ∨ s.written 15 = false) :
    s.firstUnwritten markerEntries = some (if s.written 13 then 15 else 13) := by
  cases h13 : s.written 13
  · simp [State.firstUnwritten, markerEntries, Config.markT, h13]
  · have h15 : s.written 15 = false := h.resolve_left (by simp [h13])
    simp [State.firstUnwritten, markerEntries, Config.markT, Config.markM, h13, h15]

/-- FINFO of DET's fault: the unwritten entry's index over DET's word (R114). -/
theorem unwrittenInfo_det (b : Bool) :
    unwrittenInfo (if b then 15 else 13) (encode .det) = if b then 0x000F5000 else 0x000D5000 := by
  cases b <;> decide

/-- DET of an idle block is accepted, checked and completed in one tick. -/
theorem exec_det_of_idle {s : State} (h : s.Idle) :
    exec .det s = .next (complete (guardWritten markerEntries recordClass (accept .det s))) :=
  command_idle h rfl

/-- Settles O36: the acceptance tick classifies two written marker entries, or faults on the first unwritten one. -/
theorem detClassifiesOrFaults : Obligations.DetClassifiesOrFaults := by
  intro s hidle
  rw [exec_det_of_idle hidle]
  refine ⟨fun h13 h15 => congrArg Host.Outcome.next ?classified, fun hw => congrArg Host.Outcome.next ?faults⟩
  case classified =>
    rw [guardWritten_of_written (s := accept .det s) (forall_mem_markerEntries.mpr ⟨h13, h15⟩)]
    have hclass : (accept .det s).classified = (s.bufRead 15 || !s.bufRead 13) := classify_eq _ _
    simp only [recordClass, hclass, hidle.2]
    rfl
  case faults =>
    have hfirst : (accept .det s).firstUnwritten markerEntries = some (if s.written 13 then 15 else 13) :=
      firstUnwritten_markerEntries hw
    rw [guardWritten_of_firstUnwritten hfirst, accept_cur, unwrittenInfo_det]
    rfl

end Sys2Proof.Machine

namespace Sys2Proof.Machine

/-! ### A compact frame, byte by byte (R91) -/

/-- The entries lo to hi - 1 in order. -/
theorem entries_getElem? {lo hi j : Nat} (h : lo + j < hi) : (entries lo hi)[j]? = some (lo + j) := by
  rw [entries, List.getElem?_range' (by omega), Nat.one_mul]

theorem compactBytes_getElem? (s : State) {start count i : Nat} (h : i < count) :
    (s.compactBytes start count)[i]? = some (if s.bufRead (start + i) then s.params.oneMarker else 0x00) := by
  rw [State.compactBytes, List.getElem?_append_left (by simpa using h), List.getElem?_map,
    entries_getElem? (Nat.add_lt_add_left h start)]
  rfl

theorem compactBytes_getLast? (s : State) (start count : Nat) :
    (s.compactBytes start count).getLast? = some 0x0A := List.getLast?_concat

/-- Settles O38: a byte for each entry, in order, then the delimiter. -/
theorem compactFrameContent : Obligations.CompactFrameContent := by
  intro s start count
  have hlen := compactBytes_length s start count
  refine ⟨hlen, ?_, fun i hi => compactBytes_getElem? s hi⟩
  rw [← compactBytes_getLast? s start count, List.getLast?_eq_getElem?, hlen, Nat.add_sub_cancel]

/-! ### A debug frame, byte by byte (R94) -/

/-- A debug frame up to digit i of the count, before that digit's group separator (R94). -/
def State.debugHead (s : State) (start i : Nat) : List Byte :=
  (entries 0 start).map (fun j => digit (s.bufRead j)) ++ [separator] ++ (entries 0 i).flatMap (s.groupedDigit start)

theorem debugHead_length (s : State) (start i : Nat) :
    (s.debugHead start i).length = start + 1 + i + (i - 1) / 8 := by
  simp only [State.debugHead, List.length_append, groupedDigits_length, List.length_map, entries_length,
    List.length_singleton]
  omega

/-- A debug frame is its prefix and digits, the trailing separator if there is one, and the newline. -/
theorem debugBytes_eq_head (s : State) (start count : Nat) :
    s.debugBytes start count = s.debugHead start count ++ s.trailingSeparator count ++ [0x0A] := rfl

theorem debugBytes_getLast? (s : State) (start count : Nat) :
    (s.debugBytes start count).getLast? = some 0x0A := List.getLast?_concat

theorem entries_split {count i : Nat} (h : i < count) :
    entries 0 count = entries 0 i ++ i :: entries (i + 1) count := by
  obtain ⟨n, rfl⟩ := Nat.exists_eq_add_of_lt h
  have hrest : i + n + 1 - (i + 1) = n := by omega
  simp only [entries, Nat.sub_zero, hrest]
  rw [Nat.add_assoc, ← List.range'_append_1, Nat.zero_add, List.range'_succ]

/-- Digit i of the count stands after the head of i digits. -/
theorem debugBytes_split (s : State) (start : Nat) {count i : Nat} (h : i < count) :
    ∃ tail, s.debugBytes start count = s.debugHead start i ++ (s.groupedDigit start i ++ tail) := by
  simp only [State.debugBytes, State.debugHead, entries_split h, List.flatMap_append, List.flatMap_cons,
    List.append_assoc]
  exact ⟨_, rfl⟩

/-- A digit of the count whose i is a positive multiple of 8 has its separator before it, any other stands alone. -/
theorem groupedDigit_of_separated (s : State) (start : Nat) {i : Nat} (h : 0 < i ∧ i % 8 = 0) :
    s.groupedDigit start i = [separator, digit (s.bufRead (start + i))] := by
  simp [State.groupedDigit, h]

theorem groupedDigit_of_not_separated (s : State) (start : Nat) {i : Nat} (h : ¬ (0 < i ∧ i % 8 = 0)) :
    s.groupedDigit start i = [digit (s.bufRead (start + i))] := by
  simp [State.groupedDigit, h]

theorem debugBytes_prefixDigit (s : State) {start : Nat} (count : Nat) {j : Nat} (h : j < start) :
    (s.debugBytes start count)[j]? = some (digit (s.bufRead j)) := by
  simp only [State.debugBytes, List.append_assoc]
  rw [List.getElem?_append_left (by simpa using h), List.getElem?_map, entries_getElem? (by omega), Nat.zero_add]
  rfl

theorem debugBytes_prefixSeparator (s : State) (start count : Nat) :
    (s.debugBytes start count)[start]? = some separator := by
  simp only [State.debugBytes, List.append_assoc]
  rw [List.getElem?_append_right (by simp)]
  simp

theorem debugBytes_digit (s : State) (start : Nat) {count i : Nat} (h : i < count) :
    (s.debugBytes start count)[start + 1 + i + i / 8]? = some (digit (s.bufRead (start + i))) := by
  obtain ⟨tail, hsplit⟩ := debugBytes_split s start h
  have hlen := debugHead_length s start i
  rw [hsplit, List.getElem?_append_right (by omega), hlen]
  by_cases hsep : 0 < i ∧ i % 8 = 0
  · rw [groupedDigit_of_separated s start hsep,
      show start + 1 + i + i / 8 - (start + 1 + i + (i - 1) / 8) = 1 by omega]
    rfl
  · rw [groupedDigit_of_not_separated s start hsep,
      show start + 1 + i + i / 8 - (start + 1 + i + (i - 1) / 8) = 0 by omega]
    rfl

theorem debugBytes_groupSeparator (s : State) (start : Nat) {count i : Nat} (hi : i < count)
    (h : 0 < i ∧ i % 8 = 0) : (s.debugBytes start count)[start + i + i / 8]? = some separator := by
  obtain ⟨tail, hsplit⟩ := debugBytes_split s start hi
  have hlen := debugHead_length s start i
  rw [hsplit, List.getElem?_append_right (by omega), hlen, groupedDigit_of_separated s start h,
    show start + i + i / 8 - (start + 1 + i + (i - 1) / 8) = 0 by omega]
  rfl

theorem debugBytes_trailingSeparator (s : State) (start : Nat) {count : Nat} (hsep : s.params.dbgTrailingSep = true)
    (h : 0 < count ∧ count % 8 = 0) : (s.debugBytes start count)[start + count + count / 8]? = some separator := by
  have hlen := debugHead_length s start count
  have htrail : s.trailingSeparator count = [separator] := if_pos ⟨hsep, h⟩
  rw [debugBytes_eq_head, List.append_assoc, List.getElem?_append_right (by omega), hlen, htrail,
    show start + count + count / 8 - (start + 1 + count + (count - 1) / 8) = 0 by omega]
  rfl

/-- A byte that shows an entry's bit (R94). -/
def isDigit (b : Byte) : Bool := b == 0x30 || b == 0x31

theorem isDigit_digit (v : Bool) : isDigit (digit v) = true := by cases v <;> rfl

theorem filter_isDigit_groupedDigit (s : State) (start i : Nat) :
    (s.groupedDigit start i).filter isDigit = [digit (s.bufRead (start + i))] := by
  have hsep : isDigit separator = false := rfl
  by_cases h : 0 < i ∧ i % 8 = 0
  · simp [groupedDigit_of_separated s start h, hsep, isDigit_digit]
  · simp [groupedDigit_of_not_separated s start h, isDigit_digit]

/-- Without its separators and its newline a debug frame is the digits of its entries. -/
theorem filter_isDigit_debugBytes (s : State) (start count : Nat) :
    (s.debugBytes start count).filter isDigit =
      (entries 0 start).map (fun j => digit (s.bufRead j)) ++
        (entries 0 count).map (fun i => digit (s.bufRead (start + i))) := by
  have hprefix : ((entries 0 start).map fun j => digit (s.bufRead j)).filter isDigit =
      (entries 0 start).map fun j => digit (s.bufRead j) := by
    simp [List.filter_eq_self, isDigit_digit]
  have htrail : (s.trailingSeparator count).filter isDigit = [] := by
    unfold State.trailingSeparator
    split <;> rfl
  have hsep : [separator].filter isDigit = [] := rfl
  have hnewline : [Config.delim].filter isDigit = [] := rfl
  simp only [State.debugBytes, List.filter_append, List.filter_flatMap, filter_isDigit_groupedDigit, hprefix, htrail,
    hsep, hnewline, List.append_nil, ← List.map_eq_flatMap]

/-- Settles O39: each byte's place is the length of what stands before it, a separator for every full group. -/
theorem debugFrameContent : Obligations.DebugFrameContent := by
  intro s start count bytes
  refine ⟨?length, ?digits, fun j hj => debugBytes_prefixDigit s count hj, debugBytes_prefixSeparator s start count,
    fun i hi => debugBytes_digit s start hi, fun i hpos hi hmod => debugBytes_groupSeparator s start hi ⟨hpos, hmod⟩,
    fun hsep hpos hmod => debugBytes_trailingSeparator s start hsep ⟨hpos, hmod⟩, ?newline⟩
  case length =>
    have hnone : (if count = 0 then 0 else (count - 1) / 8) = (count - 1) / 8 := by
      split <;> omega
    rw [hnone]
    exact debugBytes_length s start count
  case digits =>
    have hdigits : (bytes.filter isDigit).length = start + count := by
      rw [filter_isDigit_debugBytes]
      simp
    exact hdigits
  case newline => rw [← List.getLast?_eq_getElem?, debugBytes_getLast?]

/-! ### The newline ends a frame (R93, R96) -/

theorem count_concat_of_notMem {l : List Byte} {b : Byte} (h : b ∉ l) : (l ++ [b]).count b = 1 := by
  simp [List.count_append, List.count_eq_zero.mpr h]

/-- A printable marker is not the newline (R7, R93). -/
theorem oneMarker_ne_delim {p : Params} (h : p.Admissible) : p.oneMarker ≠ Config.delim := by
  intro heq
  have hlow := h.1
  rw [heq] at hlow
  exact absurd hlow (by decide)

/-- Neither the marker nor 0x00 is the newline (R93). -/
theorem delim_notMem_compactEntries {s : State} (h : s.params.Admissible) (l : List Nat) :
    Config.delim ∉ l.map (fun j => if s.bufRead j then s.params.oneMarker else Config.zeroByte) := by
  simp only [List.mem_map, not_exists, not_and]
  intro j _
  split
  · exact oneMarker_ne_delim h
  · decide

theorem digit_ne_delim (v : Bool) : digit v ≠ Config.delim := by cases v <;> decide

theorem delim_ne_separator : Config.delim ≠ separator := by decide

theorem delim_notMem_groupedDigit (s : State) (start i : Nat) : Config.delim ∉ s.groupedDigit start i := by
  have hdigit := (digit_ne_delim (s.bufRead (start + i))).symm
  by_cases h : 0 < i ∧ i % 8 = 0
  · simp [groupedDigit_of_separated s start h, delim_ne_separator, hdigit]
  · simp [groupedDigit_of_not_separated s start h, hdigit]

/-- No digit and no separator is the newline (R96). -/
theorem delim_notMem_debugHead (s : State) (start count : Nat) :
    Config.delim ∉ s.debugHead start count ++ s.trailingSeparator count := by
  have htrail : Config.delim ∉ s.trailingSeparator count := by
    unfold State.trailingSeparator
    split <;> simp [delim_ne_separator]
  simp [State.debugHead, delim_ne_separator, delim_notMem_groupedDigit, htrail, digit_ne_delim]

/-- Settles O40: the newline is appended to bytes that are no newline. -/
theorem framesEndAtTheirOnlyNewline : Obligations.FramesEndAtTheirOnlyNewline := fun s start count hadm =>
  ⟨⟨count_concat_of_notMem (delim_notMem_compactEntries hadm _), compactBytes_getLast? s start count⟩,
    count_concat_of_notMem (delim_notMem_debugHead s start count), debugBytes_getLast? s start count⟩

/-! ### The acceptance tick of an emission (R90, R92, R95, R104) -/

theorem emitTick_of_accept {c : State → List Nat} {f : State → List Byte} {s : State} (ha : s.act = .accept) :
    emitTick c f s = .next (guardWritten (c s) (queueBytes f) s) := by
  simp only [emitTick, ha]

/-- An idle block accepts a framing command, checks its entries and queues its bytes in one tick. -/
theorem command_emitTick_of_idle {i : Instr} {c : State → List Nat} {f : State → List Byte} {s : State}
    (hidle : s.Idle) (hwf : i.WellFormed) :
    command i (emitTick c f) s = .next (guardWritten (c (accept i s)) (queueBytes f) (accept i s)) :=
  (command_idle hidle hwf).trans (emitTick_of_accept rfl)

theorem command_emitTick_of_written {i : Instr} {c : State → List Nat} {f : State → List Byte} {s : State}
    (hidle : s.Idle) (hwf : i.WellFormed) (hw : ∀ j ∈ c (accept i s), s.written j = true) :
    command i (emitTick c f) s = .next (queueBytes f (accept i s)) := by
  rw [command_emitTick_of_idle hidle hwf, guardWritten_of_written (s := accept i s) hw]

/-- The check of the entries from lo to hi - 1 stops at the lowest unwritten one (R90). -/
theorem firstUnwritten_entries {s : State} {lo hi k : Nat} (hlo : lo ≤ k) (hhi : k < hi) (hk : s.written k = false)
    (hw : ∀ j, lo ≤ j → j < k → s.written j = true) : s.firstUnwritten (entries lo hi) = some k := by
  rw [State.firstUnwritten, entries, List.find?_range'_eq_some, List.mem_range'_1]
  refine ⟨by simp [hk], ⟨hlo, by omega⟩, fun j hj hjk => ?_⟩
  simp [hw j hj hjk]

/-- FINFO of UNWRITTEN_READ as a number: the entry's index above CUR (R114). -/
theorem unwrittenInfo_eq_ofNat {k : Nat} (hk : k < 32) (cur : CmdWord) :
    unwrittenInfo k cur = BitVec.ofNat 32 (k * 65536 + cur.toNat) := by
  have hcur := cur.isLt
  refine BitVec.eq_of_toNat_eq ?_
  simp only [unwrittenInfo, BitVec.toNat_append, BitVec.toNat_ofNat]
  rw [← Nat.shiftLeft_add_eq_or_of_lt hcur, Nat.mod_eq_of_lt (a := k) hk]
  simp [Nat.shiftLeft_eq]
  omega

/-- The sums of a framing command in range (R60). -/
theorem frameInRange_of_sum_le {start : BitVec 5} {count : BitVec 6} (h : start.toNat + count.toNat ≤ 32) :
    frameInRange start count = true :=
  frameInRange_iff.mpr ⟨by omega, h⟩

/-- Settles O41: the check of written entries goes on, and the bytes are those of the accepted state. -/
theorem emissionsBegin : Obligations.EmissionsBegin := by
  refine ⟨fun s start count hidle hsum => ?_, fun s hidle hw => ?_⟩
  · have hwf := frameInRange_of_sum_le hsum
    refine ⟨fun hw => command_emitTick_of_written (i := .emc start count) hidle hwf fun j hj => ?_,
      fun hw => command_emitTick_of_written (i := .emd start count) hidle hwf fun j hj => ?_⟩
    · obtain ⟨hlo, hhi⟩ := mem_entries.mp hj
      exact hw j hlo hhi
    · exact hw j (mem_entries.mp hj).2
  · exact command_emitTick_of_written (i := .emf) hidle rfl fun j hj => hw j (mem_entries.mp hj).2

/-- Settles O42: the check of each command's entries faults in the acceptance tick. -/
theorem emissionsFaultOnUnwrittenEntries : Obligations.EmissionsFaultOnUnwrittenEntries := by
  intro s start count i lo hi k hidle hwf hcmd hlo hhi hk hw
  obtain ⟨c, f, hexec, hcheck, hcap⟩ : ∃ c f, exec i s = command i (emitTick c f) s ∧
      c (accept i s) = entries lo hi ∧ hi ≤ 32 := by
    rcases hcmd with ⟨rfl, rfl, rfl⟩ | ⟨rfl, rfl, rfl⟩ | ⟨rfl, rfl, rfl⟩
    · exact ⟨_, _, rfl, rfl, (frameInRange_iff.mp hwf).2⟩
    · exact ⟨_, _, rfl, rfl, (frameInRange_iff.mp hwf).2⟩
    · exact ⟨_, _, rfl, rfl, by split <;> omega⟩
  have hfirst : (accept i s).firstUnwritten (entries lo hi) = some k := firstUnwritten_entries hlo hhi hk hw
  rw [hexec, command_emitTick_of_idle hidle hwf, hcheck, guardWritten_of_firstUnwritten hfirst, accept_cur,
    unwrittenInfo_eq_ofNat (by omega)]
  rfl

/-! ### A whole EMC, EMD or EMF -/

/-- A settled block in a framing command sends, wherever in its queue it is. -/
theorem runsEmission_of_emitTick {s : State} {i : Instr} {c : State → List Nat} {f : State → List Byte}
    (hset : s.Settled) (hb : s.Busy) (hcur : s.cur = encode i) (hexec : ∀ u, exec i u = command i (emitTick c f) u) :
    s.RunsEmission complete := by
  refine ⟨hset, hb, fun oq out => ?_⟩
  rw [step_of_settled (s := s.sending oq out) hset hb hcur, hexec, command_busy (s := s.sending oq out) hb]
  exact emitTick_of_send rfl

/-- Settles O44: the acceptance tick queues the frame, and the command completes in the tick of its last byte. -/
theorem emissionsAppendTheWholeFrame : Obligations.EmissionsAppendTheWholeFrame := by
  intro s start count i lo hi bytes hidle hwf hq hcmd hw
  obtain ⟨c, f, hexec, hcheck, hbytes, hne⟩ : ∃ c f, (∀ u, exec i u = command i (emitTick c f) u) ∧
      c (accept i s.openTick) = entries lo hi ∧ f (accept i s.openTick) = bytes ∧ bytes ≠ [] := by
    rcases hcmd with ⟨rfl, rfl, rfl, rfl⟩ | ⟨rfl, rfl, rfl, rfl⟩ | ⟨rfl, rfl, rfl, rfl⟩
    · exact ⟨_, _, fun _ => rfl, rfl, rfl, compactBytes_ne_nil s _ _⟩
    · exact ⟨_, _, fun _ => rfl, rfl, rfl, debugBytes_ne_nil s _ _⟩
    · exact ⟨_, _, fun _ => rfl, rfl, rfl, frameBytes_ne_nil s⟩
  obtain ⟨b, rest, rfl⟩ := List.exists_cons_of_ne_nil hne
  have hstep : step s = .next ((accept i s.openTick).sending (b :: rest) s.out) := by
    have hwritten : ∀ j ∈ entries lo hi, (accept i s.openTick).written j = true := by
      intro j hj
      obtain ⟨hlo, hhi⟩ := mem_entries.mp hj
      exact hw j hlo hhi
    rw [step_of_cmdWrite hidle hwf hq hexec, emitTick_of_accept rfl, hcheck, guardWritten_of_written hwritten,
      queueBytes, hbytes]
    rfl
  have hruns : (accept i s.openTick).RunsEmission complete :=
    runsEmission_of_emitTick (settled_accept i hq) ⟨hidle.1, rfl⟩ rfl hexec
  obtain ⟨hreach, hbusy⟩ := (hruns.wholeEmission b rest s.out).after_step hstep
  exact ⟨⟨_, hreach, ⟨hidle.1, rfl⟩, rfl, ⟨rfl, rfl⟩, ⟨rfl, rfl⟩, ⟨rfl, rfl, rfl, rfl⟩, rfl⟩, hbusy⟩

end Sys2Proof.Machine

namespace Sys2Proof.Machine

/-! ### NOP, IRQOFF, IRQON and DLY (R99 to R102) -/

/-- Acceptance and completion in one tick leave an idle block idle, with the command's word in CUR (R22, R58). -/
theorem complete_accept {s : State} (i : Instr) (h : s.Idle) :
    complete (accept i s) = { s with cur := encode i, act := .accept } := by
  simp only [complete, accept, h.2]

/-- Settles O46: the acceptance tick sets IS as the command says and completes. -/
theorem oneTickCommandsComplete : Obligations.OneTickCommandsComplete := fun s hidle =>
  ⟨(command_idle hidle rfl).trans (congrArg Host.Outcome.next (complete_accept .nop hidle)),
    (command_idle hidle rfl).trans
      (congrArg Host.Outcome.next (complete_accept (s := { s with is := true }) .irqoff hidle)),
    (command_idle hidle rfl).trans
      (congrArg Host.Outcome.next (complete_accept (s := { s with is := false }) .irqon hidle))⟩

theorem startDelay_of_zero (k : State → State) {s : State} (h : s.params.interCycleTicks = 0) :
    startDelay k s = k { s with dc := 0 } := if_pos h

theorem startDelay_of_pos (k : State → State) {s : State} (h : 0 < s.params.interCycleTicks) :
    startDelay k s = { s with dc := s.params.interCycleTicks, act := .delay } := if_neg (Nat.ne_of_gt h)

theorem dlyTick_of_delay {s : State} (ha : s.act = .delay) : dlyTick s = delayTick complete s := by
  simp only [dlyTick, ha]

/-- A tick of the delay that is not its last counts one down (R102). -/
theorem delayTick_of_more (k : State → State) {s : State} (ha : s.act = .delay) (h : 1 < s.dc) :
    delayTick k s = .next { s with dc := s.dc - 1 } := by
  simp only [delayTick, ha, if_neg (show s.dc - 1 ≠ 0 by omega)]

/-- In the last tick of the delay what follows it is done (R102). -/
theorem delayTick_of_last (k : State → State) {s : State} (ha : s.act = .delay) (h : s.dc = 1) :
    delayTick k s = .next (k { s with dc := 0 }) := by
  simp only [delayTick, ha, h, Nat.sub_self, if_true]

/-- Settles O47: the acceptance tick starts the delay, whose ticks count down to the one that completes. -/
theorem dlyCountsDownAndCompletes : Obligations.DlyCountsDownAndCompletes := by
  refine fun s => ⟨fun hidle hzero => ?_, fun hidle hpos => ?_, fun hb ha hdc => ?_, fun hb ha hdc => ?_⟩
  · have hend := startDelay_of_zero (s := accept .dly s) complete hzero
    exact (command_idle hidle rfl).trans
      (congrArg Host.Outcome.next (hend.trans (complete_accept (s := { s with dc := 0 }) .dly hidle)))
  · exact (command_idle hidle rfl).trans (congrArg Host.Outcome.next (startDelay_of_pos complete hpos))
  · exact (command_busy hb).trans ((dlyTick_of_delay ha).trans (delayTick_of_more complete ha hdc))
  · exact (command_busy hb).trans ((dlyTick_of_delay ha).trans (delayTick_of_last complete ha hdc))

/-- Settles O48: the acceptance tick starts a delay, and the command completes in the delay's last tick. -/
theorem dlyTakesTheInterCycleTicks : Obligations.DlyTakesTheInterCycleTicks := by
  intro s hidle hq
  have hstep : step s = .next (startDelay complete (accept .dly s.openTick)) :=
    step_of_cmdWrite (i := .dly) hidle rfl hq fun _ => rfl
  have hset := settled_accept .dly hq
  have hbusy : (accept .dly s.openTick).Busy := ⟨hidle.1, rfl⟩
  have hdelay : (accept .dly s.openTick).RunsDelay complete :=
    ⟨hbusy, fun n => (step_of_settled (s := (accept .dly s.openTick).delaying n) (i := .dly) hset hbusy rfl).trans
      ((command_busy (s := (accept .dly s.openTick).delaying n) hbusy).trans (dlyTick_of_delay rfl))⟩
  rw [← hset.openTick_eq] at hdelay
  obtain ⟨t, hrun, ht⟩ := hdelay.startDelay hset.1 hbusy
  obtain ⟨hreach, hlast⟩ := hrun.after_step hstep
  refine ⟨⟨complete t, hreach, ?_⟩, hlast⟩
  rw [ht]
  exact ⟨⟨hidle.1, rfl⟩, ⟨rfl, rfl⟩, ⟨rfl, rfl⟩, ⟨rfl, rfl, rfl, rfl⟩, rfl, rfl⟩

/-! ### CAP, CYCLE and RUN: their acceptance ticks (R103, R105, R106) -/

/-- A capture begins with the LATCH wait of its base pass (R103). -/
theorem startCapture_eq_latchWait (s : State) : startCapture s =
    { s with fl := false, kph := .pass1, bi := 0, ews := .pre, act := .latch } := rfl

/-- A cycle sets IS before its capture begins (R105). -/
theorem startCycle_eq_latchWait (s : State) : startCycle s =
    { s with is := true, cph := .b, fl := false, kph := .pass1, bi := 0, ews := .pre, act := .latch } := rfl

/-- Settles O50: the acceptance tick starts the capture or the cycle. -/
theorem capturesBegin : Obligations.CapturesBegin := fun s hidle =>
  ⟨(command_idle hidle rfl).trans (congrArg Host.Outcome.next (startCapture_eq_latchWait (accept .cap s))),
    (command_idle hidle rfl).trans (congrArg Host.Outcome.next (startCycle_eq_latchWait (accept .cycle s))),
    (command_idle hidle rfl).trans (congrArg Host.Outcome.next (startCycle_eq_latchWait (accept .run s)))⟩

end Sys2Proof.Machine

namespace Sys2Proof.Machine

/-! ### A capture tick, whatever follows the capture (R103) -/

/-- As k varies, the tick F ends in one state, or in k at one state, or in one fault. -/
def SameUpToEnd (F : (State → State) → Result) : Prop :=
  (∃ t, ∀ k, F k = .next t) ∨ (∃ u, ∀ k, F k = .next (k u)) ∨ ∃ r, ∀ k, F k = .fault r

theorem passTick_sameUpToEnd {g : (State → State) → State → State} (hg : ∀ u, SameUpToEnd fun k => .next (g k u))
    (p : Pass) (s : State) : SameUpToEnd fun k => passTick p (g k) s := by
  unfold passTick
  cases s.act with
  | latch | clock | spin => exact .inl ⟨_, fun _ => rfl⟩
  | data =>
    by_cases hn : p.n ≤ s.bi + 1
    · simp only [if_pos hn]
      exact hg (storeBit p s)
    · simp only [if_neg hn]
      exact .inl ⟨_, fun _ => rfl⟩
  | accept | wait | send | delay => exact .inr (.inr ⟨_, fun _ => rfl⟩)

theorem afterBasePass_sameUpToEnd (u : State) : SameUpToEnd fun k => .next (afterBasePass k u) := by
  unfold afterBasePass guardWritten
  cases State.firstUnwritten { u with kph := .classify } markerEntries with
  | some i => exact .inl ⟨_, fun _ => rfl⟩
  | none =>
    by_cases hclass : State.classified { u with kph := .classify } = true
    · simp only [classifyFrame, if_pos hclass]
      exact .inl ⟨_, fun _ => rfl⟩
    · simp only [classifyFrame, if_neg hclass]
      exact .inr (.inl ⟨_, fun _ => rfl⟩)

theorem captureTick_sameUpToEnd (s : State) : SameUpToEnd fun k => captureTick k s := by
  unfold captureTick
  cases s.kph with
  | pass1 => exact passTick_sameUpToEnd afterBasePass_sameUpToEnd s.basePass s
  | pass2 => exact passTick_sameUpToEnd (fun _ => .inr (.inl ⟨_, fun _ => rfl⟩)) s.extPass s
  | classify => exact .inr (.inr ⟨_, fun _ => rfl⟩)

/-- Only what follows a capture, or a fault, makes the block idle. -/
theorem captureTick_busy {s u : State} (hb : s.busy = true) (h : captureTick (fun v => v) s = .next u)
    (hf : u.flt = false) : u.busy = true := by
  obtain ⟨v, ⟨⟨-, -, hbusy, -⟩, -⟩, hend⟩ := captureTick_frame h
  rcases hend with rfl | rfl | ⟨info, rfl⟩
  · exact hbusy.trans hb
  · exact hbusy.trans hb
  · cases hf

/-- A tick that leaves CAP running is the tick of any command that captures. -/
theorem captureTick_of_running {s t : State} (k : State → State) (h : captureTick complete s = .next t)
    (ht : t.busy = true) : captureTick k s = .next t := by
  rcases captureTick_sameUpToEnd s with ⟨v, hv⟩ | ⟨u, hu⟩ | ⟨r, hr⟩
  · exact (hv k).trans ((hv complete).symm.trans h)
  · cases (hu complete).symm.trans h
    cases ht
  · cases (hr complete).symm.trans h

/-- A tick that ends CAP without a fault ends the capture of any command, at a state in which the block is busy. -/
theorem captureTick_of_ended {s t : State} (hb : s.busy = true) (h : captureTick complete s = .next t)
    (ht : t.busy = false) (hf : t.flt = false) :
    ∃ u, t = complete u ∧ u.busy = true ∧ ∀ k, captureTick k s = .next (k u) := by
  rcases captureTick_sameUpToEnd s with ⟨v, hv⟩ | ⟨u, hu⟩ | ⟨r, hr⟩
  · cases (hv complete).symm.trans h
    exact absurd ((captureTick_busy hb (hv _) hf).symm.trans ht) (by decide)
  · cases (hu complete).symm.trans h
    exact ⟨u, rfl, captureTick_busy hb (hu _) hf, hu⟩
  · cases (hr complete).symm.trans h

/-! ### The ticks of an emission and of a delay, whatever follows them (R102, R144) -/

/-- The last byte of an emission goes out, and what follows comes in its tick. -/
theorem sendTick_of_last (k : State → State) {s : State} {b : Byte} (ha : s.act = .send) (ho : s.oq = [b]) :
    sendTick k s = .next (k (({ s with oq := [] } : State).transmit b)) := by
  simp only [sendTick, ha, ho]

theorem sendTick_of_more (k : State → State) {s : State} {b : Byte} {rest : List Byte} (ha : s.act = .send)
    (ho : s.oq = b :: rest) (hne : rest ≠ []) :
    sendTick k s = .next (({ s with oq := rest } : State).transmit b) := by
  obtain ⟨c, rest, rfl⟩ := List.exists_cons_of_ne_nil hne
  simp only [sendTick, ha, ho]

/-- What follows an emission matters in the tick of its last byte alone. -/
theorem sendTick_congr {k k' : State → State} {s : State}
    (h : ∀ b, s.act = .send → s.oq = [b] →
      k (({ s with oq := [] } : State).transmit b) = k' (({ s with oq := [] } : State).transmit b)) :
    sendTick k s = sendTick k' s := by
  unfold sendTick
  split
  · next b ha ho => rw [h b ha ho]
  · rfl
  · rfl

/-- What follows a delay matters in its last tick alone. -/
theorem delayTick_congr {k k' : State → State} {s : State}
    (h : s.act = .delay → s.dc ≤ 1 → k { s with dc := s.dc - 1 } = k' { s with dc := s.dc - 1 }) :
    delayTick k s = delayTick k' s := by
  unfold delayTick
  split
  · next ha =>
    split
    · next hdc => rw [h ha (by omega)]
    · rfl
  · rfl

/-- What follows step (e) matters at the end of an emission and of a delay alone (R105, R106). -/
theorem cycleTick_congr {k k' : State → State} {s : State}
    (hd : s.cph = .d → sendTick (afterEmission k) s = sendTick (afterEmission k') s)
    (he : s.cph = .e → delayTick k s = delayTick k' s) : cycleTick k s = cycleTick k' s := by
  unfold cycleTick
  split
  · rfl
  · rfl
  · next hc _ => exact hd hc
  · next hc _ => exact he hc
  · rfl

theorem afterEmission_of_zero (k : State → State) {s : State} (h : s.params.interCycleTicks = 0) :
    afterEmission k s = k { s with cph := .e, dc := 0 } :=
  startDelay_of_zero (s := { s with cph := .e }) k h

theorem afterEmission_of_pos (k : State → State) {s : State} (h : 0 < s.params.interCycleTicks) :
    afterEmission k s = { s with cph := .e, dc := s.params.interCycleTicks, act := .delay } :=
  startDelay_of_pos (s := { s with cph := .e }) k h

/-! ### CYCLE does the ticks of CAP, EMF and DLY (R105) -/

section
variable {s t : State} (hb : s.Busy) (ha : s.act ≠ .accept)
include hb ha

/-- EMF past its acceptance tick sends from its queue (R104). -/
theorem sendTick_of_exec_emf (h : exec .emf s = .next t) : sendTick complete s = .next t :=
  (emitTick_cases ((command_busy hb).symm.trans h)).elim (fun h => absurd h.1 ha) (·.2)

theorem delayTick_of_exec_dly (h : exec .dly s = .next t) : delayTick complete s = .next t :=
  (dlyTick_cases ((command_busy hb).symm.trans h)).elim (fun h => absurd h.1 ha) (·.2)

theorem exec_cycle_of_capture (hc : s.cph = .b) : exec .cycle s = captureTick afterCapture s :=
  (command_busy hb).trans (cycleTick_of_capture ha hc)

/-- A step of a cycle that goes on is a tick of its command. -/
theorem exec_cycle_of_running
    (h : s.cph = .b ∧ exec .cap s = .next t ∨ s.cph = .d ∧ exec .emf s = .next t ∨ s.cph = .e ∧ exec .dly s = .next t)
    (ht : t.busy = true) : exec .cycle s = .next t := by
  rcases h with ⟨hc, h⟩ | ⟨hc, h⟩ | ⟨hc, h⟩
  · rw [exec_cap_of_started hb ha] at h
    rw [exec_cycle_of_capture hb ha hc, captureTick_of_running afterCapture h ht]
  · obtain ⟨hsend, b, rest, ho, ⟨-, rfl⟩ | ⟨hne, rfl⟩⟩ := sendTick_cases (sendTick_of_exec_emf hb ha h)
    · cases ht
    · exact (command_busy hb).trans ((cycleTick_of_send hsend hc).trans (sendTick_of_more _ hsend ho hne))
  · have hdly := delayTick_of_exec_dly hb ha h
    exact (command_busy hb).trans ((cycleTick_of_delay (delayTick_cases hdly).1 hc).trans hdly)

/-- The end of a written capture releases IS and queues the frame (R105, R107). -/
theorem exec_cycle_of_capture_end (hc : s.cph = .b) (h : exec .cap s = .next t) (ht : t.busy = false)
    (hf : t.flt = false) (hw : ∀ j ∈ t.frameEntries, t.written j = true) :
    exec .cycle s = .next { t with busy := true, is := false, cph := .d, act := .send, oq := t.frameBytes } := by
  rw [exec_cap_of_started hb ha] at h
  obtain ⟨u, rfl, hbusy, hend⟩ := captureTick_of_ended hb.2 h ht hf
  have hqueue : afterCapture u = queueBytes State.frameBytes { u with is := false, cph := .d } :=
    guardWritten_of_written hw
  rw [exec_cycle_of_capture hb ha hc, hend, hqueue, ← hbusy]
  rfl

/-- The last byte of the frame starts the delay (R105). -/
theorem exec_cycle_of_emission_end (hc : s.cph = .d) (h : exec .emf s = .next t) (ht : t.busy = false)
    (hpos : 0 < s.params.interCycleTicks) :
    exec .cycle s = .next { t with busy := true, cph := .e, act := .delay, dc := s.params.interCycleTicks } := by
  obtain ⟨hsend, b, rest, ho, ⟨rfl, rfl⟩ | ⟨hne, rfl⟩⟩ := sendTick_cases (sendTick_of_exec_emf hb ha h)
  · have hcycle : exec .cycle s = .next (afterEmission complete (({ s with oq := [] } : State).transmit b)) :=
      (command_busy hb).trans ((cycleTick_of_send hsend hc).trans (sendTick_of_last _ hsend ho))
    have hdelay := afterEmission_of_pos (s := ({ s with oq := [] } : State).transmit b) complete hpos
    rw [hcycle, hdelay, ← hb.2]
    rfl
  · exact absurd (ht.symm.trans hb.2) (by decide)

end

/-! ### RUN does the ticks of CYCLE up to the end of step (e) (R106) -/

section
variable {s : State} (hb : s.Busy)
include hb

theorem exec_run_eq_exec_cycle (hdelay : ¬ (s.cph = .e ∧ s.act = .delay ∧ s.dc ≤ 1))
    (hsend : ¬ (s.cph = .d ∧ s.act = .send ∧ s.oq.length = 1 ∧ s.params.interCycleTicks = 0)) :
    exec .run s = exec .cycle s := by
  refine (command_busy hb).trans ((cycleTick_congr (fun hc => sendTick_congr fun b ha ho => ?_) fun hc =>
    delayTick_congr fun ha hdc => absurd ⟨hc, ha, hdc⟩ hdelay).trans (command_busy hb).symm)
  have hpos : 0 < s.params.interCycleTicks :=
    Nat.pos_of_ne_zero fun hzero => hsend ⟨hc, ha, by rw [ho]; rfl, hzero⟩
  have hdelay := fun k => afterEmission_of_pos (s := ({ s with oq := [] } : State).transmit b) k hpos
  rw [hdelay, hdelay]

/-- In the last tick of its delay a cycle ends, and RUN begins the next one. -/
theorem exec_of_delay_end (hc : s.cph = .e) (ha : s.act = .delay) (hdc : s.dc = 1) :
    exec .cycle s = .next (complete { s with dc := 0 }) ∧ exec .run s = .next (startCycle { s with dc := 0 }) :=
  ⟨(command_busy hb).trans ((cycleTick_of_delay ha hc).trans (delayTick_of_last _ ha hdc)),
    (command_busy hb).trans ((cycleTick_of_delay ha hc).trans (delayTick_of_last _ ha hdc))⟩

/-- With no delay the tick of the frame's last byte is the one in which a cycle ends. -/
theorem exec_of_emission_end {b : Byte} (hc : s.cph = .d) (ha : s.act = .send) (ho : s.oq = [b])
    (hzero : s.params.interCycleTicks = 0) :
    exec .cycle s = .next (complete { ({ s with oq := [] } : State).transmit b with cph := .e, dc := 0 }) ∧
    exec .run s = .next (startCycle { ({ s with oq := [] } : State).transmit b with cph := .e, dc := 0 }) := by
  have htick : ∀ k, cycleTick k s = .next (k { ({ s with oq := [] } : State).transmit b with cph := .e, dc := 0 }) :=
    fun k => (cycleTick_of_send ha hc).trans ((sendTick_of_last _ ha ho).trans (congrArg Host.Outcome.next
      (afterEmission_of_zero (s := ({ s with oq := [] } : State).transmit b) k hzero)))
  exact ⟨(command_busy hb).trans (htick complete), (command_busy hb).trans (htick startCycle)⟩

end

/-- Settles O52: the steps that go on, the turns between them, the ticks RUN shares with CYCLE, and the ends. -/
theorem cyclesRunTheirStepsAndRepeat : Obligations.CyclesRunTheirStepsAndRepeat := by
  refine ⟨fun s t hb ha => exec_cycle_of_running hb ha, fun s t hb ha ht => ⟨fun hc h hf hw => ?captureEnds,
    fun hc h hpos => exec_cycle_of_emission_end hb ha hc h ht hpos⟩, fun s hb => exec_run_eq_exec_cycle hb,
    fun s hb => ⟨exec_of_delay_end hb, fun b => exec_of_emission_end hb⟩⟩
  case captureEnds =>
    exact exec_cycle_of_capture_end hb ha hc h ht hf fun j hj => hw j (mem_frameEntries.mp hj)

end Sys2Proof.Machine

namespace Sys2Proof.Machine

/-! ### A tick of CAP, CYCLE or RUN from a state of the invariant -/

theorem State.Runs.flt_eq {s : State} {i : Instr} (h : s.Runs i) : s.flt = false := by
  obtain ⟨⟨-, ⟨hflt, -⟩, -⟩, -⟩ := h
  exact hflt

/-- A tick the host leaves alone is the tick of the running command, from a place in it. -/
theorem State.Inv.quietTick {s : State} {i : Instr} {f : State → Result} (hs : s.Inv) (hb : s.Busy)
    (hq : s.HostQuiet) (hd : decodeWord s.cur = some i) (hexec : ∀ u, exec i u = command i f u) :
    step s = f s.openTick ∧ s.openTick.Runs i ∧ (s.openTick.act = .accept ∨ s.openTick.At i) :=
  ⟨(step_of_quiet hq).trans ((sequencerTick_of_busy (s := s.openTick) hb hd).trans
      ((hexec _).trans (command_busy (s := s.openTick) hb))),
    (openTick_inv hs).runs hb hd⟩

/-- A capture raises no fault: its base pass has written what the classification reads (R103, R107). -/
theorem capTick_flt {s t : State} (hr : s.Runs .cap) (hp : s.act = .accept ∨ s.InCapture)
    (h : capTick s = .next t) : t.flt = false := by
  rcases capTick_cases h with ⟨-, rfl⟩ | ⟨ha, h⟩
  · exact hr.startCapture.flt_eq
  · rcases captureTick_inCapture hr (hp.resolve_left ha) h with ⟨htr, -⟩ | ⟨u, rfl, hur, -⟩
    · exact htr.flt_eq
    · exact hur.flt_eq

/-- After the last byte of a frame the delay is to pass, or step (e) has ended and k follows (R105). -/
theorem afterEmission_inCycle {i : Instr} {s : State} (k : State → State) (hr : s.Runs i) (his : s.is = false)
    (hfl : s.fl = s.ext) :
    ((afterEmission k s).Runs i ∧ (afterEmission k s).InCycle) ∨ ∃ u, afterEmission k s = k u ∧ u.Runs i := by
  rcases Nat.eq_zero_or_pos s.params.interCycleTicks with hzero | hpos
  · exact .inr ⟨_, afterEmission_of_zero k hzero, hr.withDc (Nat.zero_le _)⟩
  · rw [afterEmission_of_pos k hpos]
    exact .inl ⟨hr.withDc (Nat.le_refl _), (inCycle_e rfl).mpr ⟨his, hfl, rfl, hpos⟩⟩

/-- A tick of a cycle ends at a place in the cycle, or step (e) has ended and k follows (R105). -/
theorem cycleTick_inCycle {i : Instr} {k : State → State} {s t : State} (hr : s.Runs i)
    (hp : s.act = .accept ∨ s.InCycle) (h : cycleTick k s = .next t) :
    (t.Runs i ∧ t.InCycle) ∨ ∃ u, t = k u ∧ u.Runs i := by
  rcases cycleTick_cases h with ⟨-, rfl⟩ | ⟨ha, hc, h⟩ | ⟨ha, hc, h⟩ | ⟨ha, hc, h⟩
  · exact .inl ⟨hr.startCycle, startCycle_inCycle s⟩
  · obtain ⟨his, hcap⟩ := (inCycle_b hc).mp (hp.resolve_left ha)
    rcases captureTick_inCapture hr hcap h with ⟨htr, htp, his', hc'⟩ | ⟨u, rfl, hur, hstored, -⟩
    · exact .inl ⟨htr, (inCycle_b (hc'.trans hc)).mpr ⟨his'.trans his, htp⟩⟩
    · exact .inl (afterCapture_inCycle hur hstored)
  · obtain ⟨his, hfl, -⟩ := (inCycle_d hc).mp (hp.resolve_left ha)
    obtain ⟨hsend, b, rest, -, hbyte⟩ := sendTick_cases h
    have hsent : (({ s with oq := rest } : State).transmit b).Runs i :=
      State.Runs.transmit (s := { s with oq := rest }) hr b
    rcases hbyte with ⟨rfl, rfl⟩ | ⟨hne, rfl⟩
    · exact afterEmission_inCycle k hsent his hfl
    · exact .inl ⟨hsent, (inCycle_d (s := ({ s with oq := rest } : State).transmit b) hc).mpr ⟨his, hfl, hsend, hne⟩⟩
  · obtain ⟨his, hfl, -⟩ := (inCycle_e hc).mp (hp.resolve_left ha)
    have hle := hr.dc_le
    have hrun : ({ s with dc := s.dc - 1 } : State).Runs i := hr.withDc (by omega)
    obtain ⟨hdelay, ⟨-, rfl⟩ | ⟨hdc, rfl⟩⟩ := delayTick_cases h
    · exact .inr ⟨_, rfl, hrun⟩
    · exact .inl ⟨hrun, (inCycle_e (s := { s with dc := s.dc - 1 }) hc).mpr
        ⟨his, hfl, hdelay, Nat.sub_pos_of_lt hdc⟩⟩

/-- i is CYCLE or RUN, and k what follows its step (e) (R105, R106). -/
def CycleCommand (i : Instr) (k : State → State) : Prop := i = .cycle ∧ k = complete ∨ i = .run ∧ k = startCycle

theorem cycleCommand_of_cur {cur : CmdWord} (h : cur ∈ [0xD000#16, 0xE000#16]) :
    ∃ i k, CycleCommand i k ∧ decodeWord cur = some i := by
  simp only [List.mem_cons, List.not_mem_nil, or_false] at h
  rcases h with rfl | rfl
  · exact ⟨.cycle, _, .inl ⟨rfl, rfl⟩, by decide⟩
  · exact ⟨.run, _, .inr ⟨rfl, rfl⟩, by decide⟩

section
variable {i : Instr} {k : State → State} (h : CycleCommand i k)
include h

/-- A quiet tick of CYCLE or RUN is a tick of the cycle, from a place in it. -/
theorem CycleCommand.quietTick {s : State} (hs : s.Inv) (hb : s.Busy) (hq : s.HostQuiet)
    (hd : decodeWord s.cur = some i) :
    step s = cycleTick k s.openTick ∧ s.openTick.Runs i ∧ (s.openTick.act = .accept ∨ s.openTick.InCycle) := by
  rcases h with ⟨rfl, rfl⟩ | ⟨rfl, rfl⟩ <;> exact hs.quietTick hb hq hd fun _ => rfl

/-- At the end of step (e) a command completes, or a next cycle is at a place in it. -/
theorem CycleCommand.ends {s : State} (hr : s.Runs i) :
    (k s).flt = false ∧ ((k s).busy = true → (k s).InCycle) := by
  rcases h with ⟨rfl, rfl⟩ | ⟨rfl, rfl⟩
  · exact ⟨hr.flt_eq, nofun⟩
  · exact ⟨hr.startCycle.flt_eq, fun _ => startCycle_inCycle s⟩

/-- A tick of CYCLE or RUN raises no fault, and the block is idle after it or at a place in a cycle. -/
theorem CycleCommand.tick_inCycle {s t : State} (hr : s.Runs i) (hp : s.act = .accept ∨ s.InCycle)
    (ht : cycleTick k s = .next t) : t.flt = false ∧ (t.busy = true → t.InCycle) := by
  rcases cycleTick_inCycle hr hp ht with ⟨htr, htp⟩ | ⟨u, rfl, hur⟩
  · exact ⟨htr.flt_eq, fun _ => htp⟩
  · exact h.ends hur

end

/-- Settles O56: the sequencer answers, and neither a capture nor a cycle reaches an unwritten entry. -/
theorem capturesAndCyclesNeverFault : Obligations.CapturesAndCyclesNeverFault := by
  intro s hs hb hq hcur
  obtain ⟨t, ht⟩ := step_answers_of_no_access hs hq.2
  refine ⟨t, ht, ?_⟩
  rcases List.mem_cons.mp hcur with hcap | hcycle
  · have hd : decodeWord s.cur = some .cap := by rw [hcap]; decide
    obtain ⟨hstep, hr, hp⟩ := hs.quietTick (i := .cap) hb hq hd fun _ => rfl
    exact capTick_flt hr hp (hstep.symm.trans ht)
  · obtain ⟨i, k, hi, hd⟩ := cycleCommand_of_cur hcycle
    obtain ⟨hstep, hr, hp⟩ := hi.quietTick hs hb hq hd
    exact (hi.tick_inCycle hr hp (hstep.symm.trans ht)).1

/-! ### IS over a cycle (R108) -/

/-- The next action of a pass is an observation or a spin (R78, R81). -/
theorem State.InPass.act_mem {s : State} {p : Pass} (h : s.InPass p) :
    s.act ∈ [Action.latch, .clock, .data, .spin] := by
  cases ha : s.act with
  | latch | clock | data | spin => simp
  | accept | wait | send | delay => simp [State.InPass, ha] at h

theorem State.InCapture.act_mem {s : State} (h : s.InCapture) : s.act ∈ [Action.latch, .clock, .data, .spin] := by
  cases hk : s.kph with
  | pass1 => exact ((inCapture_pass1 hk).mp h).2.act_mem
  | pass2 =>
    obtain ⟨-, -, -, hpass⟩ := (inCapture_pass2 hk).mp h
    exact hpass.act_mem
  | classify => simp [State.InCapture, hk] at h

/-- At a place in a cycle IS is 1 while a capture runs, and 0 while a byte is to be sent or the delay passes. -/
theorem State.InCycle.is_cases {s : State} (h : s.InCycle) :
    (s.cph = .b ∧ s.is = true ∧ s.act ∈ [Action.latch, .clock, .data, .spin]) ∨
    (s.cph ≠ .b ∧ s.is = false ∧ s.act ∈ [Action.send, .delay]) := by
  cases hc : s.cph with
  | b =>
    obtain ⟨his, hcap⟩ := (inCycle_b hc).mp h
    exact .inl ⟨rfl, his, hcap.act_mem⟩
  | d =>
    obtain ⟨his, -, hsend, -⟩ := (inCycle_d hc).mp h
    exact .inr ⟨nofun, his, by simp [hsend]⟩
  | e =>
    obtain ⟨his, -, hdelay, -⟩ := (inCycle_e hc).mp h
    exact .inr ⟨nofun, his, by simp [hdelay]⟩
  | a | c => simp [State.InCycle, hc] at h

/-- The end of a capture sends nothing: the frame's first byte goes out in the next tick (R105, R144). -/
theorem afterCapture_tx (s : State) : (afterCapture s).tx = s.tx := by
  unfold afterCapture
  rcases guardWritten_cases s.frameEntries (queueBytes State.frameBytes) { s with is := false, cph := .d } with
    ⟨-, heq⟩ | ⟨j, -, -, -, heq⟩ <;> rw [heq] <;> rfl

/-- A tick of a capture in a cycle sends nothing. -/
theorem captureTick_tx {s t : State} (h : captureTick afterCapture s = .next t) : t.tx = s.tx := by
  obtain ⟨u, ⟨-, ⟨-, htx⟩, -⟩, rfl | rfl | ⟨info, rfl⟩⟩ := captureTick_frame h
  · exact htx
  · exact (afterCapture_tx u).trans htx
  · exact htx

theorem CycleCommand.sameDevice {i : Instr} {k : State → State} (h : CycleCommand i k) (s : State) :
    SameDevice s (k s) := by
  rcases h with ⟨-, rfl⟩ | ⟨-, rfl⟩ <;> exact ⟨rfl, rfl, rfl, rfl⟩

/-- The end of an emission observes no line, if what follows step (e) does not. -/
theorem sameDevice_afterEmission {k : State → State} (hk : ∀ u, SameDevice u (k u)) (s : State) :
    SameDevice s (afterEmission k s) := by
  unfold afterEmission
  obtain heq | heq := startDelay_cases k { s with cph := .e } <;> rw [heq]
  · exact hk { s with cph := .e, dc := 0 }
  · exact ⟨rfl, rfl, rfl, rfl⟩

/-- What a tick of a cycle shows of the device and the port: its acceptance tick nothing, a capture no byte, an emission
and a delay no observation. -/
theorem cycleTick_shows {k : State → State} {s t : State} (hk : ∀ u, SameDevice u (k u))
    (h : cycleTick k s = .next t) :
    (s.act = .accept ∧ SameDevice s t ∧ t.tx = s.tx) ∨ (s.act ≠ .accept ∧ s.cph = .b ∧ t.tx = s.tx) ∨
    (s.act ≠ .accept ∧ s.cph ≠ .b ∧ SameDevice s t) := by
  rcases cycleTick_cases h with ⟨ha, rfl⟩ | ⟨ha, hc, h⟩ | ⟨ha, hc, h⟩ | ⟨ha, hc, h⟩
  · exact .inl ⟨ha, ⟨rfl, rfl, rfl, rfl⟩, rfl⟩
  · exact .inr (.inl ⟨ha, hc, captureTick_tx h⟩)
  · refine .inr (.inr ⟨ha, by simp [hc], ?_⟩)
    obtain ⟨-, b, rest, -, ⟨-, rfl⟩ | ⟨-, rfl⟩⟩ := sendTick_cases h
    · exact sameDevice_afterEmission hk (({ s with oq := [] } : State).transmit b)
    · exact ⟨rfl, rfl, rfl, rfl⟩
  · refine .inr (.inr ⟨ha, by simp [hc], ?_⟩)
    obtain ⟨-, ⟨-, rfl⟩ | ⟨-, rfl⟩⟩ := delayTick_cases h
    · exact hk { s with dc := s.dc - 1 }
    · exact ⟨rfl, rfl, rfl, rfl⟩

/-- IS is 1 in a tick of a cycle that observes or spins, and 0 in one that sends a byte or counts the delay. -/
theorem cycleTick_is {k : State → State} {s t : State} (hk : ∀ u, SameDevice u (k u))
    (hp : s.act = .accept ∨ s.InCycle) (htx : s.tx = none) (h : cycleTick k s = .next t) :
    (¬ SameDevice s t ∨ s.act = .spin → s.is = true) ∧ (t.tx ≠ none ∨ s.act = .delay → s.is = false) := by
  rcases cycleTick_shows hk h with ⟨ha, hdev, hport⟩ | ⟨ha, hc, hport⟩ | ⟨ha, hc, hdev⟩
  · exact ⟨fun hobs => absurd hobs (by simp [hdev, ha]), fun hsend => absurd hsend (by simp [hport, htx, ha])⟩
  · obtain ⟨-, his, hact⟩ := (hp.resolve_left ha).is_cases.resolve_right fun hout => hout.1 hc
    refine ⟨fun _ => his, fun hsend => absurd hsend ?_⟩
    rintro (htx' | hdelay)
    · exact htx' (hport.trans htx)
    · simp [hdelay] at hact
  · obtain ⟨-, his, hact⟩ := (hp.resolve_left ha).is_cases.resolve_left fun hin => hc hin.1
    refine ⟨fun hobs => absurd hobs ?_, fun _ => his⟩
    rintro (hdev' | hspin)
    · exact hdev' hdev
    · simp [hspin] at hact

theorem not_sampling_of_sending {a : Action} (h : a ∈ [Action.send, .delay]) :
    a ∉ [Action.latch, .clock, .data, .spin] := by
  simp only [List.mem_cons, List.not_mem_nil, or_false] at h
  rcases h with rfl | rfl <;> decide

/-- At a place in a cycle IS is as its next action needs it. -/
theorem State.InCycle.is_of_act {s : State} (h : s.InCycle) :
    (s.act ∈ [Action.latch, .clock, .data, .spin] → s.is = true) ∧
    (s.act ∈ [Action.send, .delay] → s.is = false) := by
  rcases h.is_cases with ⟨-, his, hact⟩ | ⟨-, his, hact⟩
  · exact ⟨fun _ => his, fun hsend => absurd hact (not_sampling_of_sending hsend)⟩
  · exact ⟨fun hsample => absurd hsample (not_sampling_of_sending hact), fun _ => his⟩

/-- Settles O57: IS of the step of the cycle that the tick is in, and of the one it ends in. -/
theorem interruptsSuspendedExactlyWhileSampling : Obligations.InterruptsSuspendedExactlyWhileSampling := by
  intro s t hs hb hq hcur ht
  obtain ⟨i, k, hi, hd⟩ := cycleCommand_of_cur hcur
  obtain ⟨hstep, hr, hp⟩ := hi.quietTick hs hb hq hd
  have htick : cycleTick k s.openTick = .next t := hstep.symm.trans ht
  obtain ⟨hobserves, hsends⟩ := cycleTick_is hi.sameDevice hp rfl htick
  exact ⟨hobserves, hsends, fun hbusy => ((hi.tick_inCycle hr hp htick).2 hbusy).is_of_act⟩

end Sys2Proof.Machine

namespace Sys2Proof.Machine

/-! ### An idle and a halted block at rest (R119, R121, R128) -/

/-- Settles O11: the tick is the sequencer's action, and an idle block's sequencer has none. -/
theorem idleBlockStaysAsItIs : Obligations.IdleBlockStaysAsItIs := by
  intro s ⟨_, hbusy⟩ hquiet
  rw [step_of_quiet hquiet]
  exact sequencerTick_of_not_busy hbusy

/-- No write reaches a halted block (R119, R121). -/
theorem writeTick_of_halted {s : State} (r : Reg) (v : BusWord) (h : s.flt = true) : writeTick r v s = .next s := by
  cases r with
  | cmd => simp [writeTick, cmdWrite, h]
  | cfg => exact cfgWriteTick_of_halted v h
  | status | buf | finfo | reserved => exact sequencerTick_of_halted h

/-- A halted block's tick can change the read data and the count of BUF reads alone (R48, R119). -/
theorem step_of_halted {s : State} (hflt : s.flt = true) (hrst : s.hostNow.rst = false)
    (haccess : s.hostNow.access = none ∨ ∃ off : BitVec 5, off.toNat % 4 = 0 ∧ s.HostAccesses .word off) :
    ∃ d n, step s = .next (s.openTick.withRead d n) := by
  rcases haccess with hnone | ⟨off, halign, hread | ⟨v, hwrite⟩⟩
  · exact ⟨none, s.bufReads, (step_of_quiet ⟨hrst, hnone⟩).trans (sequencerTick_of_halted hflt)⟩
  · obtain ⟨r, hr⟩ := accessReg_word_of_aligned halign
    exact ⟨some (s.regValue r), if r = .buf then s.bufReads + 1 else s.bufReads,
      (step_of_read (congrArg₂ HostTick.mk hrst hread) hr).trans (sequencerTick_of_halted hflt)⟩
  · obtain ⟨r, hr⟩ := accessReg_word_of_aligned halign
    exact ⟨none, s.bufReads,
      (step_of_write (congrArg₂ HostTick.mk hrst hwrite) hr).trans (writeTick_of_halted r v hflt)⟩

/-- Settles O15: what a halted block's tick can change is no part of the block, its output or its device. -/
theorem haltedBlockStaysHalted : Obligations.HaltedBlockStaysHalted := by
  intro s hflt hrst haccess
  obtain ⟨d, n, hstep⟩ := step_of_halted hflt hrst haccess
  refine ⟨s.openTick.withRead d n, hstep, ?_⟩
  simp [State.withRead]

end Sys2Proof.Machine

namespace Sys2Proof.Machine

/-! ### The first tick after reset (R131, R144) -/

/-- The host has nothing to do and the ports show nothing just after reset (R28). -/
theorem settled_resetOn (p : Params) : (State.resetOn p).Settled := ⟨rfl, rfl, rfl⟩

/-- With AUTORUN the block is in a command just after reset (R131). -/
theorem busy_resetOn {p : Params} (h : p.autorun = true) : (State.resetOn p).Busy := ⟨rfl, h⟩

/-- With AUTORUN the command in CUR just after reset is RUN (R131). -/
theorem cur_resetOn_eq_encode_run {p : Params} (h : p.autorun = true) : (State.resetOn p).cur = encode .run := by
  have hcur : (State.resetOn p).cur = 0xE000 := if_pos h
  rw [hcur]
  decide

/-- Settles O3: RUN's acceptance tick starts the cycle, whose other variables already hold their reset values; an idle block
does nothing. -/
theorem firstTickAfterReset : Obligations.FirstTickAfterReset := by
  intro p
  have hset := settled_resetOn p
  refine ⟨fun hrun => ?_, fun hidle => ?_⟩
  · have hbusy := busy_resetOn hrun
    calc step (State.resetOn p)
      _ = exec .run (State.resetOn p) := step_of_settled hset hbusy (cur_resetOn_eq_encode_run hrun)
      _ = .next (startCycle (State.resetOn p)) := command_busy hbusy
      _ = _ := congrArg Host.Outcome.next (startCycle_eq_latchWait (State.resetOn p))
  · calc step (State.resetOn p)
      _ = .next (State.resetOn p).openTick :=
        idleBlockStaysAsItIs (State.resetOn p) ⟨rfl, hidle⟩ (hostQuiet_of_nil hset.1)
      _ = .next (State.resetOn p) := congrArg Host.Outcome.next hset.openTick_eq

end Sys2Proof.Machine
